-- ==== Sys2Proof/Word.lean ====
section
/-!
DEFINITION. The byte, the command word and signedness (spec/00_scope.md section 6, spec/30_encoding.md rule R81).
-/

namespace Sys2Proof

/-- A byte: an 8-bit unsigned value (spec/00_scope.md section 6). -/
abbrev Byte := BitVec 8

/-- Rule R81: a host command is one 16-bit command word. -/
abbrev CmdWord := BitVec 16

/-- Rule R82: the `S` bit of SETINTEGER and GETINTEGER, 1 for signed. -/
inductive Sign where
  | U
  | S
  deriving DecidableEq, Repr

end Sys2Proof
end

