-- ==== Sys2Proof/Config.lean ====
section
/-!
DEFINITION. The constants of the SimpleComm framer core (spec/00_scope.md rules R4 and R5).
There is no free value in this model: what the spec leaves open is either never read (rule R17, R25) or is an answer of
a transport, which stands in State as data (notes/assumptions 6 and 7).
-/

namespace Sys2Proof.Config

/-- Rule R4: `SYN`, the marker byte that begins every frame. -/
abbrev SYN : Byte := 0x02#8

/-- Rule R4: `MAX_DATA_LEN`, the largest payload length in bytes; also the limit an OverflowError names. -/
abbrev MAX_DATA_LEN : Nat := 128

/-- Rule R4: `LEN_OVERHEAD`, also `MIN_LEN`: `LEN = payload_length + 4`. -/
abbrev LEN_OVERHEAD : Nat := 4

/-- Rule R4: `FRAME_OVERHEAD`, the bytes of a frame that are not payload. -/
abbrev FRAME_OVERHEAD : Nat := 6

/-- Rule R4: `MAX_FRAME`, the largest frame; also the size of `TXBUF[0..133]` (rule R22). -/
abbrev MAX_FRAME : Nat := 134

/-- Rule R4: `MAX_LEN_VALID`, the largest LEN a frame built by SEND carries. -/
abbrev MAX_LEN_VALID : Nat := 132

/-- Rule R21: the size of the staging buffer `RXBUF[0..130]`. -/
abbrev RXBUF_SIZE : Nat := 131

/-- Rule R5, decision D2: the number of packet banks. -/
abbrev NPKT : Nat := 2

/-- Rules R5 and R19, decision D13: the value of `LADDR` after reset. -/
abbrev LADDR_RESET : Byte := 0x00#8

end Sys2Proof.Config
end

