-- ==== Sys2Proof/Syntax.lean ====
section
/-!
DEFINITION. The instruction set: one constructor for each row of spec/opcode_table.json.
The first 43 are the 16-bit command words of the command port (spec/30_encoding.md rules R81 to R83); `K` is kept as the
8-bit field the word carries, so that a bank index out of range can be written (and is refused as rule R83 says).
Operands travel on the ports A, B and DATA (rule R84), which are fields of State: a word does not hold them.
The last two are the patterns of the receive stream (rules R70 and R77): they are bytes on the wire, not command words.
-/

namespace Sys2Proof

inductive Instr where
  /-- CLEAR k, `OP = 0x01` (rule R101). -/
  | clear (k : BitVec 8)
  /-- SETSOURCE k, b, `OP = 0x02` (rule R102). -/
  | setSource (k : BitVec 8)
  /-- SETDESTINATION k, b, `OP = 0x03` (rule R103). -/
  | setDestination (k : BitVec 8)
  /-- SETTYPE k, b, `OP = 0x04` (rule R104). -/
  | setType (k : BitVec 8)
  /-- GETSOURCE k, `OP = 0x05` (rule R105). -/
  | getSource (k : BitVec 8)
  /-- GETDESTINATION k, `OP = 0x06` (rule R106). -/
  | getDestination (k : BitVec 8)
  /-- GETTYPE k, `OP = 0x07` (rule R107). -/
  | getType (k : BitVec 8)
  /-- SETDATA k, s, `OP = 0x08` (rule R120). -/
  | setData (k : BitVec 8)
  /-- GETDATA k, `OP = 0x09` (rule R121). -/
  | getData (k : BitVec 8)
  /-- SETSTRING k, t, `OP = 0x0A` (rule R150). -/
  | setString (k : BitVec 8)
  /-- GETSTRING k, `OP = 0x0B` (rule R151). -/
  | getString (k : BitVec 8)
  /-- SETADDRESS b, the one word `0x0C00` (rule R108). -/
  | setAddress
  /-- GETADDRESS, the one word `0x0D00` (rule R109). -/
  | getAddress
  /-- SEND k, `OP = 0x10` (rule R162, `D = 0`, `T = 0`). -/
  | send (k : BitVec 8)
  /-- SEND k, T=t, `OP = 0x11` (rule R162, `D = 0`, `T = 1`). -/
  | sendT (k : BitVec 8)
  /-- SEND k, D=d, `OP = 0x12` (rule R162, `D = 1`, `T = 0`). -/
  | sendD (k : BitVec 8)
  /-- SEND k, D=d, T=t, `OP = 0x13` (rule R162, `D = 1`, `T = 1`). -/
  | sendDT (k : BitVec 8)
  /-- RECEIVE k, `OP = 0x18` (rule R180). -/
  | receive (k : BitVec 8)
  /-- SETINTEGER.1.U k, v, `OP = 0x20` (rule R132); also written SETCHAR.U (rule R134). -/
  | setInteger1U (k : BitVec 8)
  /-- SETINTEGER.2.U k, v, `OP = 0x21` (rule R132); also written SETSHORT.U. -/
  | setInteger2U (k : BitVec 8)
  /-- SETINTEGER.4.U k, v, `OP = 0x22` (rule R132); also written SETINT.U. -/
  | setInteger4U (k : BitVec 8)
  /-- SETINTEGER.8.U k, v, `OP = 0x23` (rule R132); also written SETLONG.U. -/
  | setInteger8U (k : BitVec 8)
  /-- SETINTEGER.1.S k, v, `OP = 0x24` (rule R132); also written SETCHAR.S. -/
  | setInteger1S (k : BitVec 8)
  /-- SETINTEGER.2.S k, v, `OP = 0x25` (rule R132); also written SETSHORT.S. -/
  | setInteger2S (k : BitVec 8)
  /-- SETINTEGER.4.S k, v, `OP = 0x26` (rule R132); also written SETINT.S. -/
  | setInteger4S (k : BitVec 8)
  /-- SETINTEGER.8.S k, v, `OP = 0x27` (rule R132); also written SETLONG.S. -/
  | setInteger8S (k : BitVec 8)
  /-- GETINTEGER.1.U k, `OP = 0x28` (rule R133); also written GETCHAR.U (rule R135). -/
  | getInteger1U (k : BitVec 8)
  /-- GETINTEGER.2.U k, `OP = 0x29` (rule R133); also written GETSHORT.U. -/
  | getInteger2U (k : BitVec 8)
  /-- GETINTEGER.4.U k, `OP = 0x2A` (rule R133); also written GETINT.U. -/
  | getInteger4U (k : BitVec 8)
  /-- GETINTEGER.8.U k, `OP = 0x2B` (rule R133); also written GETLONG.U. -/
  | getInteger8U (k : BitVec 8)
  /-- GETINTEGER.1.S k, `OP = 0x2C` (rule R133); also written GETCHAR.S. -/
  | getInteger1S (k : BitVec 8)
  /-- GETINTEGER.2.S k, `OP = 0x2D` (rule R133); also written GETSHORT.S. -/
  | getInteger2S (k : BitVec 8)
  /-- GETINTEGER.4.S k, `OP = 0x2E` (rule R133); also written GETINT.S. -/
  | getInteger4S (k : BitVec 8)
  /-- GETINTEGER.8.S k, `OP = 0x2F` (rule R133); also written GETLONG.S. -/
  | getInteger8S (k : BitVec 8)
  /-- Reserved `OP = 0x00` (rule R83). -/
  | reserved00 (k : BitVec 8)
  /-- Reserved `OP = 0000111x` (rule R83). -/
  | reserved0E (x : BitVec 1) (k : BitVec 8)
  /-- Reserved `OP = 000101xx` (rule R83). -/
  | reserved14 (x : BitVec 2) (k : BitVec 8)
  /-- Reserved `OP = 0x19` (rule R83). -/
  | reserved19 (k : BitVec 8)
  /-- Reserved `OP = 0001101x` (rule R83). -/
  | reserved1A (x : BitVec 1) (k : BitVec 8)
  /-- Reserved `OP = 000111xx` (rule R83). -/
  | reserved1C (x : BitVec 2) (k : BitVec 8)
  /-- Reserved `OP = 0011xxxx` (rule R83). -/
  | reserved30 (x : BitVec 4) (k : BitVec 8)
  /-- Reserved `OP = 01xxxxxx` (rule R83). -/
  | reserved40 (x : BitVec 6) (k : BitVec 8)
  /-- Reserved `OP = 1xxxxxxx` (rule R83). -/
  | reserved80 (x : BitVec 7) (k : BitVec 8)
  /-- FRAME on the receive stream: the SYN byte and the bytes `rest` that follow it, LEN first and then the body, as far
  as they have arrived (rules R70 and R71: the receiver knows a candidate by its SYN byte alone). -/
  | frame (rest : List Byte)
  /-- FRAME.FALSE_SYN on the receive stream: SYN and a LEN byte `000000LL` below 4 (rules R77 and R186). -/
  | frameFalseSyn (ll : BitVec 2)
  deriving DecidableEq, Repr

end Sys2Proof
end

