-- ==== Sys2Proof/WellFormed.lean ====
section
/-!
DEFINITION. Well-formed instructions: a command names one of the `NPKT` banks (spec/30_encoding.md rule R83), and a frame's
bytes are those of one candidate, its LEN byte 4 or more and no byte past its body (rules R72 and R77).
-/

namespace Sys2Proof

/-- Rule R83: the legal values of the bank field are 0 to `NPKT - 1`. -/
def bankFieldOK (k : BitVec 8) : Bool := decide (k.toNat < Config.NPKT)

/-- Rules R71, R72 and R77: after the SYN byte come nothing yet, or a LEN byte of 4 or more and at most LEN body bytes. -/
def candidateOK : List Byte → Bool
  | [] => true
  | len :: body => decide (Config.LEN_OVERHEAD ≤ len.toNat) && decide (body.length ≤ len.toNat)

/-- The check of an instruction. A reserved command word has no operand to check (rule R83: its `K` is ignored). -/
def Instr.wf : Instr → Bool
  | .clear k => bankFieldOK k
  | .setSource k => bankFieldOK k
  | .setDestination k => bankFieldOK k
  | .setType k => bankFieldOK k
  | .getSource k => bankFieldOK k
  | .getDestination k => bankFieldOK k
  | .getType k => bankFieldOK k
  | .setData k => bankFieldOK k
  | .getData k => bankFieldOK k
  | .setString k => bankFieldOK k
  | .getString k => bankFieldOK k
  | .setAddress => true
  | .getAddress => true
  | .send k => bankFieldOK k
  | .sendT k => bankFieldOK k
  | .sendD k => bankFieldOK k
  | .sendDT k => bankFieldOK k
  | .receive k => bankFieldOK k
  | .setInteger1U k => bankFieldOK k
  | .setInteger2U k => bankFieldOK k
  | .setInteger4U k => bankFieldOK k
  | .setInteger8U k => bankFieldOK k
  | .setInteger1S k => bankFieldOK k
  | .setInteger2S k => bankFieldOK k
  | .setInteger4S k => bankFieldOK k
  | .setInteger8S k => bankFieldOK k
  | .getInteger1U k => bankFieldOK k
  | .getInteger2U k => bankFieldOK k
  | .getInteger4U k => bankFieldOK k
  | .getInteger8U k => bankFieldOK k
  | .getInteger1S k => bankFieldOK k
  | .getInteger2S k => bankFieldOK k
  | .getInteger4S k => bankFieldOK k
  | .getInteger8S k => bankFieldOK k
  | .reserved00 _ => true
  | .reserved0E _ _ => true
  | .reserved14 _ _ => true
  | .reserved19 _ => true
  | .reserved1A _ _ => true
  | .reserved1C _ _ => true
  | .reserved30 _ _ => true
  | .reserved40 _ _ => true
  | .reserved80 _ _ => true
  | .frame rest => candidateOK rest
  | .frameFalseSyn _ => true

end Sys2Proof
end

