-- ==== Sys2Proof/Decode.lean ====
section
/-!
DEFINITION. The decoder and, after it, the encoder (spec/30_encoding.md rules R70 to R72, R77, R81 to R83 and
spec/opcode_table.json).
There are two code spaces: 16-bit command words on the command port, and bytes on the receive stream. The command
decoder is total over all 65536 words: a reserved `OP` decodes to the reserved row it falls in, and the one kind of word
that is in no row (SETADDRESS or GETADDRESS with `K` not 0, rule R83) is rejected by name. The stream decoder is total over
all byte lists.
-/

namespace Sys2Proof

/-- Why bytes or a word are no instruction. -/
inductive DecodeError where
  /-- Rule R83: SETADDRESS or GETADDRESS with `K` not 0. The step ends such a command with `Fault(ILLEGAL_CMD)`. -/
  | addressCommandWithK (op k : BitVec 8)
  /-- Rule R182: the stream's next byte is not SYN, so it begins no frame. The receive engine discards it as noise. -/
  | noise (b : Byte)
  /-- There is no byte to decode: the stream has not answered. -/
  | noByte
  deriving DecidableEq, Repr

/-- What an instruction is written as: a command word, or bytes of the receive stream. -/
inductive Encoded where
  | command (w : CmdWord)
  | wire (bytes : List Byte)
  deriving DecidableEq, Repr

/-- Rule R81: bits 15:8 of the command word. -/
def opField (w : CmdWord) : BitVec 8 := w.extractLsb' 8 8

/-- Rule R81: bits 7:0 of the command word. -/
def kField (w : CmdWord) : BitVec 8 := w.extractLsb' 0 8

/-- Rule R83: the reserved `OP` values above those of rule R82, row by row of the opcode table. -/
def decodeReserved (op k : BitVec 8) : Instr :=
  if op.extractLsb' 1 7 = 0b0000111#7 then .reserved0E (op.extractLsb' 0 1) k
  else if op.extractLsb' 2 6 = 0b000101#6 then .reserved14 (op.extractLsb' 0 2) k
  else if op = 0x19#8 then .reserved19 k
  else if op.extractLsb' 1 7 = 0b0001101#7 then .reserved1A (op.extractLsb' 0 1) k
  else if op.extractLsb' 2 6 = 0b000111#6 then .reserved1C (op.extractLsb' 0 2) k
  else if op.extractLsb' 4 4 = 0b0011#4 then .reserved30 (op.extractLsb' 0 4) k
  else if op.extractLsb' 6 2 = 0b01#2 then .reserved40 (op.extractLsb' 0 6) k
  else if op.extractLsb' 7 1 = 0b1#1 then .reserved80 (op.extractLsb' 0 7) k
  else .reserved00 k

/-- Rule R82: the operation codes; every other `OP` is reserved (rule R83). -/
def decodeOp (op k : BitVec 8) : Except DecodeError Instr :=
  match op with
  | 0x01#8 => .ok (.clear k)
  | 0x02#8 => .ok (.setSource k)
  | 0x03#8 => .ok (.setDestination k)
  | 0x04#8 => .ok (.setType k)
  | 0x05#8 => .ok (.getSource k)
  | 0x06#8 => .ok (.getDestination k)
  | 0x07#8 => .ok (.getType k)
  | 0x08#8 => .ok (.setData k)
  | 0x09#8 => .ok (.getData k)
  | 0x0A#8 => .ok (.setString k)
  | 0x0B#8 => .ok (.getString k)
  | 0x0C#8 => if k = 0#8 then .ok .setAddress else .error (.addressCommandWithK op k)
  | 0x0D#8 => if k = 0#8 then .ok .getAddress else .error (.addressCommandWithK op k)
  | 0x10#8 => .ok (.send k)
  | 0x11#8 => .ok (.sendT k)
  | 0x12#8 => .ok (.sendD k)
  | 0x13#8 => .ok (.sendDT k)
  | 0x18#8 => .ok (.receive k)
  | 0x20#8 => .ok (.setInteger1U k)
  | 0x21#8 => .ok (.setInteger2U k)
  | 0x22#8 => .ok (.setInteger4U k)
  | 0x23#8 => .ok (.setInteger8U k)
  | 0x24#8 => .ok (.setInteger1S k)
  | 0x25#8 => .ok (.setInteger2S k)
  | 0x26#8 => .ok (.setInteger4S k)
  | 0x27#8 => .ok (.setInteger8S k)
  | 0x28#8 => .ok (.getInteger1U k)
  | 0x29#8 => .ok (.getInteger2U k)
  | 0x2A#8 => .ok (.getInteger4U k)
  | 0x2B#8 => .ok (.getInteger8U k)
  | 0x2C#8 => .ok (.getInteger1S k)
  | 0x2D#8 => .ok (.getInteger2S k)
  | 0x2E#8 => .ok (.getInteger4S k)
  | 0x2F#8 => .ok (.getInteger8S k)
  | _ => .ok (decodeReserved op k)

/-- The command port's decoder, total over all command words. -/
def decodeCommand (w : CmdWord) : Except DecodeError Instr :=
  decodeOp (opField w) (kField w)

/-- The receive stream's decoder: the instruction that begins at the next byte, and the bytes after it.
Rule R71: SYN alone begins a candidate. Rule R77: a LEN byte below 4 makes it a false SYN match. Rule R76: otherwise LEN
more bytes belong to the candidate, as many of them as have arrived. -/
def decodeWire : List Byte → Except DecodeError (Instr × List Byte)
  | [] => .error .noByte
  | b :: rest =>
    if b = Config.SYN then
      match rest with
      | [] => .ok (.frame [], [])
      | len :: body =>
        if len.toNat < Config.LEN_OVERHEAD then .ok (.frameFalseSyn (len.extractLsb' 0 2), body)
        else .ok (.frame (len :: body.take len.toNat), body.drop len.toNat)
    else .error (.noise b)

/-- The decoder over both code spaces: the instruction and what follows it (nothing follows a command word). -/
def decode : Encoded → Except DecodeError (Instr × List Byte)
  | .command w => (decodeCommand w).map fun i => (i, [])
  | .wire bytes => decodeWire bytes

/-! ## The encoder -/

/-- Rule R81: the word with operation code `op` and bank field `k`. -/
def cmdWord (op k : BitVec 8) : CmdWord := op ++ k

/-- The words or bytes of an instruction, from the patterns of the opcode table. -/
def encode : Instr → Encoded
  | .clear k => .command (cmdWord 0x01#8 k)
  | .setSource k => .command (cmdWord 0x02#8 k)
  | .setDestination k => .command (cmdWord 0x03#8 k)
  | .setType k => .command (cmdWord 0x04#8 k)
  | .getSource k => .command (cmdWord 0x05#8 k)
  | .getDestination k => .command (cmdWord 0x06#8 k)
  | .getType k => .command (cmdWord 0x07#8 k)
  | .setData k => .command (cmdWord 0x08#8 k)
  | .getData k => .command (cmdWord 0x09#8 k)
  | .setString k => .command (cmdWord 0x0A#8 k)
  | .getString k => .command (cmdWord 0x0B#8 k)
  | .setAddress => .command (cmdWord 0x0C#8 0x00#8)
  | .getAddress => .command (cmdWord 0x0D#8 0x00#8)
  | .send k => .command (cmdWord 0x10#8 k)
  | .sendT k => .command (cmdWord 0x11#8 k)
  | .sendD k => .command (cmdWord 0x12#8 k)
  | .sendDT k => .command (cmdWord 0x13#8 k)
  | .receive k => .command (cmdWord 0x18#8 k)
  | .setInteger1U k => .command (cmdWord 0x20#8 k)
  | .setInteger2U k => .command (cmdWord 0x21#8 k)
  | .setInteger4U k => .command (cmdWord 0x22#8 k)
  | .setInteger8U k => .command (cmdWord 0x23#8 k)
  | .setInteger1S k => .command (cmdWord 0x24#8 k)
  | .setInteger2S k => .command (cmdWord 0x25#8 k)
  | .setInteger4S k => .command (cmdWord 0x26#8 k)
  | .setInteger8S k => .command (cmdWord 0x27#8 k)
  | .getInteger1U k => .command (cmdWord 0x28#8 k)
  | .getInteger2U k => .command (cmdWord 0x29#8 k)
  | .getInteger4U k => .command (cmdWord 0x2A#8 k)
  | .getInteger8U k => .command (cmdWord 0x2B#8 k)
  | .getInteger1S k => .command (cmdWord 0x2C#8 k)
  | .getInteger2S k => .command (cmdWord 0x2D#8 k)
  | .getInteger4S k => .command (cmdWord 0x2E#8 k)
  | .getInteger8S k => .command (cmdWord 0x2F#8 k)
  | .reserved00 k => .command (cmdWord 0x00#8 k)
  | .reserved0E x k => .command (cmdWord (0b0000111#7 ++ x) k)
  | .reserved14 x k => .command (cmdWord (0b000101#6 ++ x) k)
  | .reserved19 k => .command (cmdWord 0x19#8 k)
  | .reserved1A x k => .command (cmdWord (0b0001101#7 ++ x) k)
  | .reserved1C x k => .command (cmdWord (0b000111#6 ++ x) k)
  | .reserved30 x k => .command (cmdWord (0b0011#4 ++ x) k)
  | .reserved40 x k => .command (cmdWord (0b01#2 ++ x) k)
  | .reserved80 x k => .command (cmdWord (0b1#1 ++ x) k)
  | .frame rest => .wire (Config.SYN :: rest)
  | .frameFalseSyn ll => .wire [Config.SYN, ll.setWidth 8]

/-! ## The opcode table's own view -/

/-- The instruction the decoder reads from a word numbered as spec/opcode_table.json numbers its rows. A row of 16 bits is
a command word and goes to the command decoder; a row of 8 bits (FRAME, whose one fixed byte is SYN) is a byte of the
receive stream and goes to the stream decoder. The row FRAME.FALSE_SYN has 16 bits too, and its words 0x0200 to 0x0203
are, as command words, SETSOURCE: the width alone does not say which port a word stands on, and this function answers
for the command port (notes/assumptions 10). -/
def decodeTableWord (nbits w : Nat) : Option Instr :=
  if nbits = 16 then
    match decodeCommand (BitVec.ofNat 16 w) with
    | .ok i => some i
    | .error _ => none
  else if nbits = 8 then
    match decodeWire [BitVec.ofNat 8 w] with
    | .ok (i, _) => some i
    | .error _ => none
  else none

/-- One row of spec/opcode_table.json, its `mask` and `match` as the table has them. -/
structure TableRow where
  mnemonic : String
  mask : CmdWord
  pattern : CmdWord
  deriving DecidableEq, Repr

/-- The opcode table's command rows for packets and addresses. -/
def tableHeaderRows : List TableRow :=
  [⟨"CLEAR", 0xFF00#16, 0x0100#16⟩,
   ⟨"SETSOURCE", 0xFF00#16, 0x0200#16⟩,
   ⟨"SETDESTINATION", 0xFF00#16, 0x0300#16⟩,
   ⟨"SETTYPE", 0xFF00#16, 0x0400#16⟩,
   ⟨"GETSOURCE", 0xFF00#16, 0x0500#16⟩,
   ⟨"GETDESTINATION", 0xFF00#16, 0x0600#16⟩,
   ⟨"GETTYPE", 0xFF00#16, 0x0700#16⟩,
   ⟨"SETDATA", 0xFF00#16, 0x0800#16⟩,
   ⟨"GETDATA", 0xFF00#16, 0x0900#16⟩,
   ⟨"SETSTRING", 0xFF00#16, 0x0A00#16⟩,
   ⟨"GETSTRING", 0xFF00#16, 0x0B00#16⟩,
   ⟨"SETADDRESS", 0xFFFF#16, 0x0C00#16⟩,
   ⟨"GETADDRESS", 0xFFFF#16, 0x0D00#16⟩]

/-- The opcode table's rows of SEND and RECEIVE. -/
def tableStreamRows : List TableRow :=
  [⟨"SEND", 0xFF00#16, 0x1000#16⟩,
   ⟨"SEND.T", 0xFF00#16, 0x1100#16⟩,
   ⟨"SEND.D", 0xFF00#16, 0x1200#16⟩,
   ⟨"SEND.DT", 0xFF00#16, 0x1300#16⟩,
   ⟨"RECEIVE", 0xFF00#16, 0x1800#16⟩]

/-- The opcode table's rows of SETINTEGER and GETINTEGER. -/
def tableIntegerRows : List TableRow :=
  [⟨"SETINTEGER.1.U", 0xFF00#16, 0x2000#16⟩,
   ⟨"SETINTEGER.2.U", 0xFF00#16, 0x2100#16⟩,
   ⟨"SETINTEGER.4.U", 0xFF00#16, 0x2200#16⟩,
   ⟨"SETINTEGER.8.U", 0xFF00#16, 0x2300#16⟩,
   ⟨"SETINTEGER.1.S", 0xFF00#16, 0x2400#16⟩,
   ⟨"SETINTEGER.2.S", 0xFF00#16, 0x2500#16⟩,
   ⟨"SETINTEGER.4.S", 0xFF00#16, 0x2600#16⟩,
   ⟨"SETINTEGER.8.S", 0xFF00#16, 0x2700#16⟩,
   ⟨"GETINTEGER.1.U", 0xFF00#16, 0x2800#16⟩,
   ⟨"GETINTEGER.2.U", 0xFF00#16, 0x2900#16⟩,
   ⟨"GETINTEGER.4.U", 0xFF00#16, 0x2A00#16⟩,
   ⟨"GETINTEGER.8.U", 0xFF00#16, 0x2B00#16⟩,
   ⟨"GETINTEGER.1.S", 0xFF00#16, 0x2C00#16⟩,
   ⟨"GETINTEGER.2.S", 0xFF00#16, 0x2D00#16⟩,
   ⟨"GETINTEGER.4.S", 0xFF00#16, 0x2E00#16⟩,
   ⟨"GETINTEGER.8.S", 0xFF00#16, 0x2F00#16⟩]

/-- The opcode table's reserved rows. -/
def tableReservedRows : List TableRow :=
  [⟨"RESERVED.0x00", 0xFF00#16, 0x0000#16⟩,
   ⟨"RESERVED.0x0E-0x0F", 0xFE00#16, 0x0E00#16⟩,
   ⟨"RESERVED.0x14-0x17", 0xFC00#16, 0x1400#16⟩,
   ⟨"RESERVED.0x19", 0xFF00#16, 0x1900#16⟩,
   ⟨"RESERVED.0x1A-0x1B", 0xFE00#16, 0x1A00#16⟩,
   ⟨"RESERVED.0x1C-0x1F", 0xFC00#16, 0x1C00#16⟩,
   ⟨"RESERVED.0x30-0x3F", 0xF000#16, 0x3000#16⟩,
   ⟨"RESERVED.0x40-0x7F", 0xC000#16, 0x4000#16⟩,
   ⟨"RESERVED.0x80-0xFF", 0x8000#16, 0x8000#16⟩]

/-- The 43 command-word rows of spec/opcode_table.json. -/
def tableRows : List TableRow :=
  tableHeaderRows ++ tableStreamRows ++ tableIntegerRows ++ tableReservedRows

/-- A word falls in a row when its masked bits are the row's. -/
def TableRow.covers (r : TableRow) (w : CmdWord) : Bool := w &&& r.mask == r.pattern

/-- The mnemonic of an instruction, as spec/opcode_table.json spells it. -/
def Instr.mnemonic : Instr → String
  | .clear _ => "CLEAR"
  | .setSource _ => "SETSOURCE"
  | .setDestination _ => "SETDESTINATION"
  | .setType _ => "SETTYPE"
  | .getSource _ => "GETSOURCE"
  | .getDestination _ => "GETDESTINATION"
  | .getType _ => "GETTYPE"
  | .setData _ => "SETDATA"
  | .getData _ => "GETDATA"
  | .setString _ => "SETSTRING"
  | .getString _ => "GETSTRING"
  | .setAddress => "SETADDRESS"
  | .getAddress => "GETADDRESS"
  | .send _ => "SEND"
  | .sendT _ => "SEND.T"
  | .sendD _ => "SEND.D"
  | .sendDT _ => "SEND.DT"
  | .receive _ => "RECEIVE"
  | .setInteger1U _ => "SETINTEGER.1.U"
  | .setInteger2U _ => "SETINTEGER.2.U"
  | .setInteger4U _ => "SETINTEGER.4.U"
  | .setInteger8U _ => "SETINTEGER.8.U"
  | .setInteger1S _ => "SETINTEGER.1.S"
  | .setInteger2S _ => "SETINTEGER.2.S"
  | .setInteger4S _ => "SETINTEGER.4.S"
  | .setInteger8S _ => "SETINTEGER.8.S"
  | .getInteger1U _ => "GETINTEGER.1.U"
  | .getInteger2U _ => "GETINTEGER.2.U"
  | .getInteger4U _ => "GETINTEGER.4.U"
  | .getInteger8U _ => "GETINTEGER.8.U"
  | .getInteger1S _ => "GETINTEGER.1.S"
  | .getInteger2S _ => "GETINTEGER.2.S"
  | .getInteger4S _ => "GETINTEGER.4.S"
  | .getInteger8S _ => "GETINTEGER.8.S"
  | .reserved00 _ => "RESERVED.0x00"
  | .reserved0E _ _ => "RESERVED.0x0E-0x0F"
  | .reserved14 _ _ => "RESERVED.0x14-0x17"
  | .reserved19 _ => "RESERVED.0x19"
  | .reserved1A _ _ => "RESERVED.0x1A-0x1B"
  | .reserved1C _ _ => "RESERVED.0x1C-0x1F"
  | .reserved30 _ _ => "RESERVED.0x30-0x3F"
  | .reserved40 _ _ => "RESERVED.0x40-0x7F"
  | .reserved80 _ _ => "RESERVED.0x80-0xFF"
  | .frame _ => "FRAME"
  | .frameFalseSyn _ => "FRAME.FALSE_SYN"

end Sys2Proof
end

