-- ==== Sys2Proof/Machine/State.lean ====
section
/-!
DEFINITION. The machine's state (spec/10_state.md), its environment (rule R24: the transports' answers, the host's
commands), the reasons a step can stop, and reset (rules R25 and R260).
-/

namespace Sys2Proof.Machine

/-- A byte space of fixed size (a payload buffer, the staging buffer, the frame buffer): the bytes that are not zero, by
rising index, each index at most once. An index that is not listed reads as 0 (notes/assumptions 4). -/
abbrev Memory := List Host.Cell

/-- A bank index, 0 to `NPKT - 1` (rule R10). -/
abbrev BankIx := Fin Config.NPKT

/-- Rule R10: a packet bank, in the register view. -/
structure Packet where
  /-- Rule R11: `SRC`. -/
  src : Byte
  /-- Rule R12: `DST`. -/
  dst : Byte
  /-- Rule R13: `TYP`. -/
  typ : Byte
  /-- Rule R15: `PSET`, the one flag of a bank. -/
  pset : Bool
  /-- Rule R16: `PLEN`, 8 bits holding 0 to 128. -/
  plen : Byte
  /-- Rule R17: `PAY[0..127]`. -/
  pay : Memory
  deriving DecidableEq, Repr

/-- Rule R21: the steps of the receive algorithm. -/
inductive RxState where
  | idle
  | seekSyn
  | readLen
  | readBody
  deriving DecidableEq, Repr

/-- Rule R22: the transmit engine's state. -/
inductive TxState where
  | idle
  | emit
  deriving DecidableEq, Repr

/-- Rule R42: one answer of the receive transport to `RxRead()`. -/
inductive RxEvent where
  | byte (b : Byte)
  | eof
  | ioerr
  deriving DecidableEq, Repr

/-- Rule R43: what the transmit transport does with `TxWrite(s)` in one step. With `pending n` it transmits the next `n` bytes of
`s` (the rest, where fewer are left) and does not answer yet. With `done` it transmits the rest and answers `Done`. With
`ioerr n` it transmits the next `n` bytes and answers `IOERR`: no code or result shows how many (rule R165). With `pending 0` it has not
answered in this step: "`TxWrite` may take unbounded time". -/
inductive TxAnswer where
  | done
  | pending (n : Nat)
  | ioerr (n : Nat)
  deriving DecidableEq, Repr

/-- The reset input, one sample a step (rule R260). What had been transmitted of a frame being written when the reset comes is
on the stream already (`possibly a partial frame`), and its length in the position of rule R23. -/
inductive ResetSample where
  | low
  | assert
  deriving DecidableEq, Repr

/-- Rules R81 and R84: one host command, its word and what stands on the operand ports with it. -/
structure Command where
  word : CmdWord
  a : Int
  b : Int
  data : List Byte
  deriving DecidableEq, Repr

/-- Rule R220: the faults, by name. -/
inductive FaultName where
  | range
  | overflow
  | nodata
  | format
  | decode
  | transport
  | illegalCmd
  deriving DecidableEq, Repr

/-- Rule R220: the information recorded with a fault. -/
inductive FaultInfo where
  | none
  /-- RangeError: `(min, max, value)` (rule R221). -/
  | bounds (min max value : Int)
  /-- OverflowError: the limit (rule R222). -/
  | limit (n : Nat)
  /-- DecodeError: `(n, PLEN)` (rule R225). -/
  | short (n plen : Nat)
  deriving DecidableEq, Repr

/-- Rule R7: how a command ends. -/
inductive Ending where
  | ok
  | okByte (b : Byte)
  | okInt (v : Int)
  | okBytes (bs : List Byte)
  | fault (name : FaultName) (info : FaultInfo)
  | noPacket
  deriving DecidableEq, Repr

/-- Rule R87: what the result port presents when a command completes. -/
structure Completion where
  /-- The 8-bit completion code, also written to STATUS. -/
  code : Byte
  ending : Ending
  deriving DecidableEq, Repr

/-- Everything the spec gives the block, and the environment it works in. -/
structure State where
  /-- Rule R10: packet bank 0. -/
  pk0 : Packet
  /-- Rule R10: packet bank 1. -/
  pk1 : Packet
  /-- Rule R19: `LADDR`. -/
  laddr : Byte
  /-- Rule R20: `STATUS`. -/
  status : Byte
  /-- Rule R21: `RXS`. -/
  rxs : RxState
  /-- Rule R21: `RXLEN`. -/
  rxlen : Byte
  /-- Rule R21: `RXCNT`. -/
  rxcnt : Byte
  /-- Rule R21: `RXSUM`. -/
  rxsum : Byte
  /-- Rule R21: `RXBUF[0..130]`. -/
  rxbuf : Memory
  /-- Rule R21: `RXK`. -/
  rxk : BankIx
  /-- Rule R22: `TXS`. -/
  txs : TxState
  /-- Rule R22: `TXBUF[0..133]`. -/
  txbuf : Memory
  /-- Rule R22: `TXN`. -/
  txn : Byte
  /-- Rule R23: the position in the frame being written, the number of its bytes that are on the transmit stream, hidden.
  The spec gives it no name, width or reset value (notes/assumptions 23). -/
  txpos : Byte
  /-- Rule R84: operand port A, as the command being executed has it. -/
  portA : Int
  /-- Rule R84: operand port B. -/
  portB : Int
  /-- Rule R84: operand port DATA. -/
  portData : List Byte
  /-- The environment: the commands the host will issue, in order (rule R52). -/
  cmds : List Command
  /-- The environment: every completion presented on the result port so far, oldest first (rule R87). -/
  results : List Completion
  /-- The environment: the answers the receive transport will give, in order (rules R24 and R42). -/
  rx : List RxEvent
  /-- The environment: the bytes written to the transmit stream so far (rules R24 and R43). -/
  tx : List Byte
  /-- The environment: what the transmit transport will say, in order (rule R43). -/
  txAns : List TxAnswer
  /-- The environment: the reset input's coming samples, one a step; after the last it stays low (rule R260). -/
  resetLine : List ResetSample
  deriving DecidableEq, Repr

/-- Where a step stops. The block itself never stops: its own faults end a command and the machine goes on (rule R232).
Both reasons arise only in states that rules R16 and R22 exclude, so a stop is SAFE: no run of the block is cut short. -/
inductive Fault where
  /-- Raised by GETDATA, GETSTRING and SEND when `PLEN` exceeds 128: `PAY` has no index above 127 and "an access outside
  0 to 127 cannot be expressed" (rule R41). Safe: rule R16 keeps `PLEN` at 0 to 128. -/
  | payloadIndex
  /-- Raised by the transmit engine when `TXN` exceeds 134: `TXBUF` has no index above 133. Safe: rule R22 keeps `TXN` at
  6 to 134 while a SEND is in progress. -/
  | frameOffset
  deriving DecidableEq, Repr

/-- Why an instruction has no meaning. -/
inductive Refusal where
  /-- Answered by an arm of exec that has no meaning yet; safe. No arm of this model does. -/
  | notModelled (mnemonic : String)
  deriving DecidableEq, Repr

/-- Rules R25 and R26: an empty bank. `PAY` is unspecified there and listed empty here (notes/assumptions 4). -/
def Packet.empty : Packet :=
  { src := 0x00#8, dst := 0x00#8, typ := 0x00#8, pset := false, plen := 0x00#8, pay := [] }

/-- Rule R25: the machine right after reset, no environment placed. The hidden engine registers that rule R25 leaves
unspecified hold 0 here (notes/assumptions 5), and the ports are empty (notes/assumptions 2). -/
def State.reset : State :=
  { pk0 := Packet.empty, pk1 := Packet.empty, laddr := Config.LADDR_RESET, status := 0x00#8,
    rxs := .idle, rxlen := 0x00#8, rxcnt := 0x00#8, rxsum := 0x00#8, rxbuf := [], rxk := 0,
    txs := .idle, txbuf := [], txn := 0x00#8, txpos := 0x00#8,
    portA := 0, portB := 0, portData := [],
    cmds := [], results := [], rx := [], tx := [], txAns := [], resetLine := [] }

end Sys2Proof.Machine
end

