-- ==== Sys2Proof/Machine/Flags.lean ====
section
/-!
DEFINITION. The status computations: the completion codes of STATUS (spec/60_exceptions.md rule R220) and the one flag of
a bank, `PSET` (spec/10_state.md rule R15). "The block has no other flags: no carry, zero, sign or overflow condition
code exists."
-/

namespace Sys2Proof.Machine

/-- Rule R220: the code `OK`. -/
def codeOk : Byte := 0x00#8

/-- Rule R220: the codes of the faults. -/
def FaultName.code : FaultName → Byte
  | .range => 0x01#8
  | .overflow => 0x02#8
  | .nodata => 0x03#8
  | .format => 0x04#8
  | .decode => 0x05#8
  | .transport => 0x06#8
  | .illegalCmd => 0x07#8

/-- Rule R220: `NOPKT_EOF_SEEK`. -/
def codeEofSeek : Byte := 0x10#8

/-- Rule R220: `NOPKT_EOF_LEN`. -/
def codeEofLen : Byte := 0x11#8

/-- Rule R220: `NOPKT_EOF_BODY`. -/
def codeEofBody : Byte := 0x12#8

/-- Rule R220: `NOPKT_IOERR`. -/
def codeIoerr : Byte := 0x13#8

/-- Rule R220: every code a command can end with; "All other code values are unused." -/
def completionCodes : List Byte :=
  [codeOk, FaultName.range.code, FaultName.overflow.code, FaultName.nodata.code, FaultName.format.code,
   FaultName.decode.code, FaultName.transport.code, FaultName.illegalCmd.code,
   codeEofSeek, codeEofLen, codeEofBody, codeIoerr]

/-- Rule R15: a payload has been set. -/
def Packet.markSet (p : Packet) : Packet := { p with pset := true }

/-- Rule R101: the payload becomes unset; `PLEN` is 0 then (rule R16, decision D25). -/
def Packet.markUnset (p : Packet) : Packet := { p with pset := false, plen := 0x00#8 }

end Sys2Proof.Machine
end

