-- ==== Sys2Proof/Machine/Operands.lean ====
section
/-!
DEFINITION. The operand forms: the range check (spec/40_packet_header_ops.md rule R100), the little-endian serializer and
deserializer (spec/42_integer_serdes.md rules R130 and R131), the checksum and the frame serializer (spec/44_send_path.md
rules R160 and R161). All are pure functions, stated for any byte count.
-/

namespace Sys2Proof.Machine

/-- Rule R100: `RangeMin(n, s)`. -/
def rangeMin (n : Nat) : Sign → Int
  | .U => 0
  | .S => -(2 ^ (8 * n - 1))

/-- Rule R100: `RangeMax(n, s)`. -/
def rangeMax (n : Nat) : Sign → Int
  | .U => 2 ^ (8 * n) - 1
  | .S => 2 ^ (8 * n - 1) - 1

/-- Rule R100: `RangeOK(v, n, s)`, on the mathematical value. -/
abbrev RangeOK (v : Int) (n : Nat) (sg : Sign) : Prop := rangeMin n sg ≤ v ∧ v ≤ rangeMax n sg

/-- The byte of an integer operand that passed the check of rule R100 for one unsigned byte. -/
def byteOf (v : Int) : Byte := BitVec.ofInt 8 v

/-- Rule R130: `LE_SER(n, s, v)`; the result does not depend on `s`, which only bounds `v`. -/
def leSer (n : Nat) (v : Int) : List Byte :=
  (List.range n).map fun i => BitVec.ofNat 8 ((v % 2 ^ (8 * n)).toNat / 2 ^ (8 * i))

/-- Rule R131: the number `Σ bs[i] * 2^(8i)`. -/
def leNat : List Byte → Nat
  | [] => 0
  | b :: bs => b.toNat + 256 * leNat bs

/-- Rule R131: `LE_DES(n, s, bs)` for a sequence `bs` of `n` bytes. -/
def leDes (n : Nat) (sg : Sign) (bs : List Byte) : Int :=
  match sg with
  | .U => leNat bs
  | .S => if leNat bs < 2 ^ (8 * n - 1) then leNat bs else leNat bs - 2 ^ (8 * n)

/-- Rule R160: `CHK(bs) = (Σ bs) mod 256`. -/
def chk (bs : List Byte) : Byte := BitVec.ofNat 8 (bs.map BitVec.toNat).sum

/-- Rule R72: the LEN byte of a frame with a payload of `n` bytes. -/
def lenByte (n : Nat) : Byte := BitVec.ofNat 8 (n + Config.LEN_OVERHEAD)

/-- Rule R161: `EncodeFrame(dst, src, typ, p)`. -/
def encodeFrame (dst src typ : Byte) (p : List Byte) : List Byte :=
  [Config.SYN, lenByte p.length, dst, src, typ] ++ p ++ [chk ([dst, src, typ] ++ p)]

/-- Rule R72: the payload length a LEN byte decodes to. -/
def payloadLength (len : Byte) : Nat := len.toNat - Config.LEN_OVERHEAD

end Sys2Proof.Machine
end

