-- ==== Sys2Proof/Machine/Ops.lean ====
section
/-!
DEFINITION. The named operations the meanings share: the byte spaces (spec/20_memory.md rule R41), the banks, completing a
command and raising a fault (spec/60_exceptions.md rule R232), reset (spec/70_reset_and_hazards.md rule R260), and taking
a command from the command port (spec/30_encoding.md rules R81 and R84).
-/

namespace Sys2Proof.Machine

/-! ## Byte spaces -/

/-- What an index that is not listed reads as (notes/assumptions 4). -/
def Memory.blank : Byte := 0x00#8

/-- The byte at an index. -/
def Memory.read : Memory → Nat → Byte
  | [], _ => Memory.blank
  | c :: m, i => if c.1 = i then c.2 else Memory.read m i

/-- Put a cell in front, unless its byte is what an unlisted index reads as. -/
def Memory.cons (i : Nat) (b : Byte) (m : Memory) : Memory :=
  if b = Memory.blank then m else (i, b) :: m

/-- Write one byte, keeping the canonical form. -/
def Memory.write : Memory → Nat → Byte → Memory
  | [], i, b => Memory.cons i b []
  | c :: m, i, b =>
    if i < c.1 then Memory.cons i b (c :: m)
    else if i = c.1 then Memory.cons i b m
    else c :: Memory.write m i b

/-- The `n` bytes from index `i` on, in ascending index order (rule R41). -/
def Memory.readN (m : Memory) (i : Nat) : Nat → List Byte
  | 0 => []
  | n + 1 => m.read i :: m.readN (i + 1) n

/-- Write a byte sequence from index `i` on (rule R41). -/
def Memory.writeN (m : Memory) (i : Nat) : List Byte → Memory
  | [] => m
  | b :: bs => (m.write i b).writeN (i + 1) bs

/-- Strictly rising indexes, the first at least `lo`, no cell that reads as an unlisted one does. -/
def Memory.wfFrom (lo : Nat) : Memory → Bool
  | [] => true
  | c :: m => decide (lo ≤ c.1) && decide (c.2 ≠ Memory.blank) && Memory.wfFrom (c.1 + 1) m

/-- The canonical form of a byte space of `size` bytes. -/
def Memory.wf (size : Nat) (m : Memory) : Bool :=
  Memory.wfFrom 0 m && m.all fun c => decide (c.1 < size)

/-- The first `n` bytes of a byte space of `size` bytes; nothing where the access would leave it. -/
def Memory.readFirst (size : Nat) (m : Memory) (n : Nat) : Option (List Byte) :=
  if n ≤ size then some (m.readN 0 n) else none

/-! ## Banks -/

/-- Rule R10: the bank a command names. -/
def State.bank (s : State) (k : BankIx) : Packet := if k = 0 then s.pk0 else s.pk1

/-- Write a bank; the other one is left as it is (rule R10: the banks are independent). -/
def State.setBank (s : State) (k : BankIx) (p : Packet) : State :=
  if k = 0 then { s with pk0 := p } else { s with pk1 := p }

/-- Change a bank by a function of its contents. -/
def State.updBank (s : State) (k : BankIx) (f : Packet → Packet) : State := s.setBank k (f (s.bank k))

/-- `MemWrite(k, 0, len(bs), bs)`, then `PLEN` and `PSET`: how every payload is stored (rules R120, R132, R150, R191). -/
def Packet.store (p : Packet) (bs : List Byte) : Packet :=
  ({ p with pay := p.pay.writeN 0 bs, plen := BitVec.ofNat 8 bs.length }).markSet

/-- `MemRead(k, 0, PLEN)` (rule R41); nothing where `PLEN` lies outside the 0 to 128 of rule R16. -/
def Packet.payload (p : Packet) : Option (List Byte) :=
  p.pay.readFirst Config.MAX_DATA_LEN p.plen.toNat

/-! ## Completing a command -/

/-- Rules R220, R232 and R87: the code goes to STATUS, the result port presents it with the ending, and the block is between
commands again (`RXS = IDLE`, `TXS = IDLE`).
DESIGN CHOICE (notes/assumptions 4 and 5): every other hidden engine register, and the contents of `RXBUF` and `TXBUF`, keep
their last values between commands, where rule R27 and 93_implementation_defined.md U9 say any value. No rule reads them
before it writes them (rule R25). -/
def State.complete (s : State) (code : Byte) (e : Ending) : State :=
  { s with status := code, rxs := .idle, txs := .idle, results := s.results ++ [⟨code, e⟩] }

/-- `return v` of the spec's pseudocode: the command ends with `Ok` or `Ok(v)`. -/
def State.finish (s : State) (e : Ending) : State := s.complete codeOk e

/-- `raise F(info)`, the block's form of taking an exception (rule R232): "Nothing is saved, no mode changes, no handler
runs, control goes nowhere". There is no return from it: "There is no return command because nothing was entered"
(rule R233). -/
def State.raise (s : State) (f : FaultName) (info : FaultInfo) : State := s.complete f.code (.fault f info)

/-- Rule R221: RangeError with the valid bounds and the offending value. -/
def State.raiseRange (s : State) (n : Nat) (sg : Sign) (v : Int) : State :=
  s.raise .range (.bounds (rangeMin n sg) (rangeMax n sg) v)

/-- Rule R222: OverflowError with the limit. -/
def State.raiseOverflow (s : State) : State := s.raise .overflow (.limit Config.MAX_DATA_LEN)

/-- Rule R83 and R228: the command word is refused with `Fault(ILLEGAL_CMD)`. -/
def State.illegalCommand (s : State) : State := s.raise .illegalCmd .none

/-- Rule R229: RECEIVE ends with `NoPacket`; only the diagnostic code differs. -/
def State.noPacket (s : State) (code : Byte) : State := s.complete code .noPacket

/-- Rules R83 and R231: a command that names a bank is refused, before everything else, where `K ≥ NPKT`. -/
def withBank (k : BitVec 8) (s : State) (act : BankIx → Host.Outcome State Fault Refusal) :
    Host.Outcome State Fault Refusal :=
  if h : k.toNat < Config.NPKT then act ⟨k.toNat, h⟩ else .next s.illegalCommand

/-! ## The command port and reset -/

/-- Rules R23, R81 and R84: the host issues its next command: the word, with its operands on the ports. -/
def State.issued (s : State) (c : Command) (rest : List Command) : State :=
  { s with cmds := rest, portA := c.a, portB := c.b, portData := c.data }

/-- One sample of the reset input is over. -/
def State.tick (s : State) : State := { s with resetLine := s.resetLine.tail }

/-- Rule R260: reset. The block's own state is that of rule R25; a command in progress is abandoned without a result. "The
block does not touch either stream at reset": consumed bytes stay consumed and written bytes stay written, those of a
frame being written among them. -/
def State.resetEvent (s : State) : State :=
  { State.reset with
    portA := s.portA, portB := s.portB, portData := s.portData, cmds := s.cmds, results := s.results,
    rx := s.rx, tx := s.tx, txAns := s.txAns, resetLine := s.resetLine }

end Sys2Proof.Machine
end

