-- ==== Sys2Proof/Machine/Header.lean ====
section
/-!
DEFINITION. CLEAR, the header-byte commands and the local-address commands (spec/40_packet_header_ops.md).
-/

namespace Sys2Proof.Machine

/-- Rule R11: write `SRC`. -/
def Packet.putSrc (b : Byte) (p : Packet) : Packet := { p with src := b }

/-- Rule R12: write `DST`. -/
def Packet.putDst (b : Byte) (p : Packet) : Packet := { p with dst := b }

/-- Rule R13: write `TYP`. -/
def Packet.putTyp (b : Byte) (p : Packet) : Packet := { p with typ := b }

/-- Rule R101: the bank of CLEAR; `PAY` is not written. -/
def Packet.cleared (p : Packet) : Packet :=
  ({ p with src := 0x00#8, dst := 0x00#8, typ := 0x00#8 }).markUnset

/-- The shape of rules R102 to R104 and R108: the operand on port A is checked as one unsigned byte, then stored. -/
def storeCheckedByte (s : State) (put : Byte → State) : Host.Outcome State Fault Refusal :=
  if RangeOK s.portA 1 .U then .next ((put (byteOf s.portA)).finish .ok)
  else .next (s.raiseRange 1 .U s.portA)

/-- A header-byte setter on bank field `k`. -/
def setHeaderByte (put : Byte → Packet → Packet) (k : BitVec 8) (s : State) : Host.Outcome State Fault Refusal :=
  withBank k s fun j => storeCheckedByte s fun b => s.updBank j (put b)

/-- A header-byte getter on bank field `k`. -/
def getHeaderByte (get : Packet → Byte) (k : BitVec 8) (s : State) : Host.Outcome State Fault Refusal :=
  withBank k s fun j => .next (s.finish (.okByte (get (s.bank j))))

/-- Rule R101. -/
def execClear (k : BitVec 8) (s : State) : Host.Outcome State Fault Refusal :=
  withBank k s fun j => .next ((s.updBank j Packet.cleared).finish .ok)

/-- Rule R102. -/
def execSetSource (k : BitVec 8) (s : State) : Host.Outcome State Fault Refusal := setHeaderByte Packet.putSrc k s

/-- Rule R103. -/
def execSetDestination (k : BitVec 8) (s : State) : Host.Outcome State Fault Refusal := setHeaderByte Packet.putDst k s

/-- Rule R104. -/
def execSetType (k : BitVec 8) (s : State) : Host.Outcome State Fault Refusal := setHeaderByte Packet.putTyp k s

/-- Rule R105. -/
def execGetSource (k : BitVec 8) (s : State) : Host.Outcome State Fault Refusal := getHeaderByte Packet.src k s

/-- Rule R106. -/
def execGetDestination (k : BitVec 8) (s : State) : Host.Outcome State Fault Refusal := getHeaderByte Packet.dst k s

/-- Rule R107. -/
def execGetType (k : BitVec 8) (s : State) : Host.Outcome State Fault Refusal := getHeaderByte Packet.typ k s

/-- Rule R108. -/
def execSetAddress (s : State) : Host.Outcome State Fault Refusal :=
  storeCheckedByte s fun b => { s with laddr := b }

/-- Rule R109. -/
def execGetAddress (s : State) : Host.Outcome State Fault Refusal :=
  .next (s.finish (.okByte s.laddr))

end Sys2Proof.Machine
end

