-- ==== Sys2Proof/Machine/Payload.lean ====
section
/-!
DEFINITION. SETDATA and GETDATA (spec/41_payload_raw_ops.md), and the two operations that the other payload commands are
defined through.
-/

namespace Sys2Proof.Machine

/-- `setData` (rule R120): the length check, then the whole payload replaced. -/
def storePayload (j : BankIx) (bs : List Byte) (s : State) : State :=
  if bs.length > Config.MAX_DATA_LEN then s.raiseOverflow
  else (s.updBank j fun p => p.store bs).finish .ok

/-- Every payload read (rule R223): NoDataError where `PSET = 0`, else the `PLEN` payload bytes. -/
def readPayload (j : BankIx) (s : State) (use : List Byte → State) : Host.Outcome State Fault Refusal :=
  if (s.bank j).pset then
    match (s.bank j).payload with
    | some p => .next (use p)
    | none => .fault .payloadIndex
  else .next (s.raise .nodata .none)

/-- Rule R120. -/
def execSetData (k : BitVec 8) (s : State) : Host.Outcome State Fault Refusal :=
  withBank k s fun j => .next (storePayload j s.portData s)

/-- Rule R121. -/
def execGetData (k : BitVec 8) (s : State) : Host.Outcome State Fault Refusal :=
  withBank k s fun j => readPayload j s fun p => s.finish (.okBytes p)

end Sys2Proof.Machine
end

