-- ==== Sys2Proof/Machine/Integer.lean ====
section
/-!
DEFINITION. SETINTEGER.n.s and GETINTEGER.n.s (spec/42_integer_serdes.md). The two shared operations are written for any
byte count `n`, as the spec's rules are; the command word admits 1, 2, 4 and 8.
-/

namespace Sys2Proof.Machine

/-- Rule R132: the range check on the mathematical value, then the encoding stored as `setData` stores it (whose length
check a width above 128 would fail, after the range check: rule R231). -/
def setInteger (n : Nat) (sg : Sign) (k : BitVec 8) (s : State) : Host.Outcome State Fault Refusal :=
  withBank k s fun j =>
    if RangeOK s.portA n sg then .next (storePayload j (leSer n s.portA) s)
    else .next (s.raiseRange n sg s.portA)

/-- Rule R133: NoDataError first, then DecodeError where the payload is shorter than `n` bytes, else the first `n` bytes
decoded. -/
def getInteger (n : Nat) (sg : Sign) (k : BitVec 8) (s : State) : Host.Outcome State Fault Refusal :=
  withBank k s fun j =>
    if (s.bank j).pset then
      if (s.bank j).plen.toNat < n then .next (s.raise .decode (.short n (s.bank j).plen.toNat))
      else
        match (s.bank j).pay.readFirst Config.MAX_DATA_LEN n with
        | some bs => .next (s.finish (.okInt (leDes n sg bs)))
        | none => .fault .payloadIndex
    else .next (s.raise .nodata .none)

/-- Rule R132, `n = 1`, unsigned. -/
def execSetInteger1U (k : BitVec 8) (s : State) : Host.Outcome State Fault Refusal := setInteger 1 .U k s

/-- Rule R132, `n = 2`, unsigned. -/
def execSetInteger2U (k : BitVec 8) (s : State) : Host.Outcome State Fault Refusal := setInteger 2 .U k s

/-- Rule R132, `n = 4`, unsigned. -/
def execSetInteger4U (k : BitVec 8) (s : State) : Host.Outcome State Fault Refusal := setInteger 4 .U k s

/-- Rule R132, `n = 8`, unsigned. -/
def execSetInteger8U (k : BitVec 8) (s : State) : Host.Outcome State Fault Refusal := setInteger 8 .U k s

/-- Rule R132, `n = 1`, signed. -/
def execSetInteger1S (k : BitVec 8) (s : State) : Host.Outcome State Fault Refusal := setInteger 1 .S k s

/-- Rule R132, `n = 2`, signed. -/
def execSetInteger2S (k : BitVec 8) (s : State) : Host.Outcome State Fault Refusal := setInteger 2 .S k s

/-- Rule R132, `n = 4`, signed. -/
def execSetInteger4S (k : BitVec 8) (s : State) : Host.Outcome State Fault Refusal := setInteger 4 .S k s

/-- Rule R132, `n = 8`, signed. -/
def execSetInteger8S (k : BitVec 8) (s : State) : Host.Outcome State Fault Refusal := setInteger 8 .S k s

/-- Rule R133, `n = 1`, unsigned. -/
def execGetInteger1U (k : BitVec 8) (s : State) : Host.Outcome State Fault Refusal := getInteger 1 .U k s

/-- Rule R133, `n = 2`, unsigned. -/
def execGetInteger2U (k : BitVec 8) (s : State) : Host.Outcome State Fault Refusal := getInteger 2 .U k s

/-- Rule R133, `n = 4`, unsigned. -/
def execGetInteger4U (k : BitVec 8) (s : State) : Host.Outcome State Fault Refusal := getInteger 4 .U k s

/-- Rule R133, `n = 8`, unsigned. -/
def execGetInteger8U (k : BitVec 8) (s : State) : Host.Outcome State Fault Refusal := getInteger 8 .U k s

/-- Rule R133, `n = 1`, signed. -/
def execGetInteger1S (k : BitVec 8) (s : State) : Host.Outcome State Fault Refusal := getInteger 1 .S k s

/-- Rule R133, `n = 2`, signed. -/
def execGetInteger2S (k : BitVec 8) (s : State) : Host.Outcome State Fault Refusal := getInteger 2 .S k s

/-- Rule R133, `n = 4`, signed. -/
def execGetInteger4S (k : BitVec 8) (s : State) : Host.Outcome State Fault Refusal := getInteger 4 .S k s

/-- Rule R133, `n = 8`, signed. -/
def execGetInteger8S (k : BitVec 8) (s : State) : Host.Outcome State Fault Refusal := getInteger 8 .S k s

end Sys2Proof.Machine
end

