-- ==== Sys2Proof/Machine/Receive.lean ====
section
/-!
DEFINITION. The receive path (spec/45_receive_path.md): RECEIVE, the transitions of the receive state machine (one for each
row of the table of section 6), the two patterns of the receive stream, and the big-step function `Recv` of rule R194.
-/

namespace Sys2Proof.Machine

/-! ## The transitions -/

/-- Rules R182 and R183: `SEEK_SYN`, `Byte(b)`. -/
def seekByte (b : Byte) (s : State) : State :=
  if b = Config.SYN then { s with rxs := .readLen } else { s with rxs := .seekSyn }

/-- Rules R186 and R187: `READ_LEN`, `Byte(L)`. -/
def lenByteTaken (len : Byte) (s : State) : State :=
  if len.toNat < Config.LEN_OVERHEAD then { s with rxs := .seekSyn }
  else { s with rxs := .readBody, rxlen := len, rxcnt := 0x00#8, rxsum := 0x00#8 }

/-- Rule R189: a body byte that is not the last; those at body index 131 and above are summed and not stored. -/
def bodyByte (b : Byte) (s : State) : State :=
  { s with
    rxbuf := if s.rxcnt.toNat < Config.RXBUF_SIZE then s.rxbuf.write s.rxcnt.toNat b else s.rxbuf
    rxsum := s.rxsum + b
    rxcnt := s.rxcnt + 0x01#8
    rxs := .readBody }

/-- Rule R191: the packet of the valid frame in the staging buffer, written over bank contents `p`. -/
def Packet.materialize (p : Packet) (rxbuf : Memory) (n : Nat) : Packet :=
  ({ p with dst := rxbuf.read 0, src := rxbuf.read 1, typ := rxbuf.read 2 }).store (rxbuf.readN 3 n)

/-- Rules R190, R191 and R192: the last body byte, the CHECKSUM field. The mismatch is tested first (rule R231). -/
def checksumByte (c : Byte) (s : State) : State :=
  if c ≠ s.rxsum then { s with rxs := .seekSyn }
  else if s.rxlen.toNat ≤ Config.MAX_LEN_VALID then
    (s.updBank s.rxk fun p => p.materialize s.rxbuf (payloadLength s.rxlen)).finish .ok
  else s.raiseOverflow

/-- A byte the receive transport answered with, in each state. In `IDLE` the block never asks (rule R230). -/
def rxByte (b : Byte) (s : State) : State :=
  match s.rxs with
  | .idle => s
  | .seekSyn => seekByte b s
  | .readLen => lenByteTaken b s
  | .readBody => if s.rxcnt.toNat < s.rxlen.toNat - 1 then bodyByte b s else checksumByte b s

/-- Rules R184, R188 and R193: `EOF` in each state. -/
def rxEof (s : State) : State :=
  match s.rxs with
  | .idle => s
  | .seekSyn => s.noPacket codeEofSeek
  | .readLen => s.noPacket codeEofLen
  | .readBody => s.noPacket codeEofBody

/-- Rule R185: `IOERR` in each state. -/
def rxIoerr (s : State) : State :=
  match s.rxs with
  | .idle => s
  | .seekSyn | .readLen | .readBody => s.noPacket codeIoerr

/-- One answer of the receive transport. -/
def rxEvent (e : RxEvent) (s : State) : State :=
  match e with
  | .byte b => rxByte b s
  | .eof => rxEof s
  | .ioerr => rxIoerr s

/-- The transport's next answer has been taken: it is gone from the stream (rule R44). -/
def State.rxTaken (s : State) (rest : List RxEvent) : State := { s with rx := rest }

/-- Rules R42 and R270: `RxRead()`, one answer a transition. While there is no answer the RECEIVE waits, and "waiting is not
an event and changes no state". -/
def rxRead (s : State) : State :=
  match s.rx with
  | [] => s
  | e :: rest => rxEvent e (s.rxTaken rest)

/-! ## The command and the stream patterns -/

/-- Rule R181: the start of RECEIVE on bank `j`; no stream event is consumed. -/
def State.startReceive (s : State) (j : BankIx) : State := { s with rxk := j, rxs := .seekSyn }

/-- Rules R180 and R181: RECEIVE k starts the receive state machine; the machine's steps then run its transitions until
one of them ends the command (rule R198: no bound of the block's own). -/
def execReceive (k : BitVec 8) (s : State) : Host.Outcome State Fault Refusal :=
  withBank k s fun j => .next (s.startReceive j)

/-- The receive transport answers with these bytes next: the engine takes them one by one, and those that come when no
RECEIVE is in progress (any longer) wait in the transport (rules R196 and R230). -/
def deliver : List Byte → State → State
  | [], s => s
  | b :: bs, s =>
    match s.rxs with
    | .idle => { s with rx := (b :: bs).map RxEvent.byte ++ s.rx }
    | .seekSyn | .readLen | .readBody => deliver bs (rxByte b s)

/-- FRAME (rules R70 to R77, R187 to R192): the bytes of a candidate frame, or of the part of it that has arrived, are the
receive transport's next answers. -/
def execFrame (rest : List Byte) (s : State) : Host.Outcome State Fault Refusal :=
  .next (deliver (Config.SYN :: rest) s)

/-- FRAME.FALSE_SYN (rules R77 and R186): a SYN byte and a LEN byte below 4 are the receive transport's next answers. -/
def execFrameFalseSyn (ll : BitVec 2) (s : State) : Host.Outcome State Fault Refusal :=
  .next (deliver [Config.SYN, ll.setWidth 8] s)

/-! ## The big-step form (rule R194) -/

/-- The outcome of `Recv(in, e)`, with the packet where there is one. -/
inductive RecvOutcome where
  | noPacket
  | overflow
  | ok (dst src typ : Byte) (payload : List Byte)
  deriving DecidableEq, Repr

/-- Rule R194, the last two lines of `Body(L, r)`: the outcome of a candidate whose checksum is right. -/
def recvVerified (len : Byte) (body : List Byte) : RecvOutcome :=
  if len.toNat > Config.MAX_LEN_VALID then .overflow
  else
    match body with
    | d :: sr :: t :: rest => .ok d sr t (rest.take (payloadLength len))
    | _ => .noPacket

/-- Rule R194: `Seek`, `Len` and `Body` in one recursion; the first argument bounds its depth and the length of the input
plus one suffices (Sys2Proof/Laws/Receive.lean). -/
def recvFuel : Nat → List Byte → RecvOutcome × List Byte
  | 0, r => (.noPacket, r)
  | _ + 1, [] => (.noPacket, [])
  | n + 1, b :: r =>
    if b ≠ Config.SYN then recvFuel n r
    else
      match r with
      | [] => (.noPacket, [])
      | len :: r' =>
        if len.toNat < Config.LEN_OVERHEAD then recvFuel n r'
        else if r'.length < len.toNat then (.noPacket, [])
        else if chk (r'.take (len.toNat - 1)) ≠ r'.getD (len.toNat - 1) 0x00#8 then recvFuel n (r'.drop len.toNat)
        else (recvVerified len (r'.take len.toNat), r'.drop len.toNat)

/-- Rule R194: `Recv(in, e)`, the outcome and the unread remainder of `in`; `e` does not influence it. -/
def recv (input : List Byte) : RecvOutcome × List Byte := recvFuel (input.length + 1) input

end Sys2Proof.Machine
end

