-- ==== Sys2Proof/Machine/Reserved.lean ====
section
/-!
DEFINITION. The reserved command words (spec/30_encoding.md rule R83): each is refused with `Fault(ILLEGAL_CMD)`, changes no
state but STATUS, reads no stream event and writes no byte.
-/

namespace Sys2Proof.Machine

/-- Rule R83, `OP = 0x00`. -/
def execReserved00 (_k : BitVec 8) (s : State) : Host.Outcome State Fault Refusal := .next s.illegalCommand

/-- Rule R83, `OP = 0x0E` and `0x0F`. -/
def execReserved0E (_x : BitVec 1) (_k : BitVec 8) (s : State) : Host.Outcome State Fault Refusal :=
  .next s.illegalCommand

/-- Rule R83, `OP = 0x14` to `0x17`. -/
def execReserved14 (_x : BitVec 2) (_k : BitVec 8) (s : State) : Host.Outcome State Fault Refusal :=
  .next s.illegalCommand

/-- Rule R83, `OP = 0x19`. -/
def execReserved19 (_k : BitVec 8) (s : State) : Host.Outcome State Fault Refusal := .next s.illegalCommand

/-- Rule R83, `OP = 0x1A` and `0x1B`. -/
def execReserved1A (_x : BitVec 1) (_k : BitVec 8) (s : State) : Host.Outcome State Fault Refusal :=
  .next s.illegalCommand

/-- Rule R83, `OP = 0x1C` to `0x1F`. -/
def execReserved1C (_x : BitVec 2) (_k : BitVec 8) (s : State) : Host.Outcome State Fault Refusal :=
  .next s.illegalCommand

/-- Rule R83, `OP = 0x30` to `0x3F`. -/
def execReserved30 (_x : BitVec 4) (_k : BitVec 8) (s : State) : Host.Outcome State Fault Refusal :=
  .next s.illegalCommand

/-- Rule R83, `OP = 0x40` to `0x7F`. -/
def execReserved40 (_x : BitVec 6) (_k : BitVec 8) (s : State) : Host.Outcome State Fault Refusal :=
  .next s.illegalCommand

/-- Rule R83, `OP = 0x80` to `0xFF`. -/
def execReserved80 (_x : BitVec 7) (_k : BitVec 8) (s : State) : Host.Outcome State Fault Refusal :=
  .next s.illegalCommand

end Sys2Proof.Machine
end

