-- ==== Sys2Proof/Machine/Send.lean ====
section
/-!
DEFINITION. The send path (spec/44_send_path.md): SEND in its four encodings, and the transmit engine's answer.
-/

namespace Sys2Proof.Machine

/-- Rules R22, R23 and R163: the frame complete in `TXBUF`, its length in `TXN`, none of its bytes out, the engine handing
it over. -/
def State.loadFrame (s : State) (f : List Byte) : State :=
  { s with txs := .emit, txbuf := s.txbuf.writeN 0 f, txn := BitVec.ofNat 8 f.length, txpos := 0x00#8 }

/-- The frame in the transmit buffer, `TXBUF[0 .. TXN-1]`. -/
def State.loadedFrame (s : State) : Option (List Byte) := s.txbuf.readFirst Config.MAX_FRAME s.txn.toNat

/-- Rule R23: the bytes of the frame from the position in it on, those not written yet. -/
def State.unsent (s : State) : Option (List Byte) := s.loadedFrame.map fun f => f.drop s.txpos.toNat

/-- The transport has transmitted these bytes of the frame, the next ones (rules R23 and R43): the stream and the position in
the frame have moved past them, and what the transport said is gone. -/
def State.txTaken (s : State) (written : List Byte) (rest : List TxAnswer) : State :=
  { s with tx := s.tx ++ written, txpos := s.txpos + BitVec.ofNat 8 written.length, txAns := rest }

/-- Rules R23, R43, R162 and R165: one step of the transmit transport in `TxWrite`. The frame's bytes go out in offset order from
the position on: some of them while there is no answer, the rest with `Done`, some of the rest with `IOERR`. While the
transport does nothing the SEND waits, and waiting changes nothing (rule R268). -/
def txAnswer (s : State) : Host.Outcome State Fault Refusal :=
  match s.txAns with
  | [] => .next s
  | a :: rest =>
    match s.unsent with
    | none => .fault .frameOffset
    | some f =>
      match a with
      | .pending n => .next (s.txTaken (f.take n) rest)
      | .done => .next ((s.txTaken f rest).finish .ok)
      | .ioerr n => .next ((s.txTaken (f.take n) rest).raise .transport .none)

/-- One optional operand of SEND (rule R162): where it is given, it is checked as an unsigned byte and overwrites the
header byte; `.error` is the state in which the command has ended with RangeError. -/
def overwriteHeader (given : Bool) (v : Int) (put : Byte → Packet → Packet) (j : BankIx) (s : State) :
    Except State State :=
  if given then
    if RangeOK v 1 .U then .ok (s.updBank j (put (byteOf v))) else .error (s.raiseRange 1 .U v)
  else .ok s

/-- The rest of rule R162's pseudocode: stamp `SRC`, read the payload, build the frame, write it. -/
def sendStamped (j : BankIx) (s : State) : Host.Outcome State Fault Refusal :=
  let s' := s.updBank j (Packet.putSrc s.laddr)
  if (s'.bank j).pset then
    match (s'.bank j).payload with
    | none => .fault .payloadIndex
    | some p => txAnswer (s'.loadFrame (encodeFrame (s'.bank j).dst (s'.bank j).src (s'.bank j).typ p))
  else .next (s'.raise .nodata .none)

/-- Rule R162: SEND k, with a destination operand on port A where `d`, with a type operand on port B where `t`. The steps
run in the order written and a fault does not undo the steps before it. -/
def sendForm (d t : Bool) (k : BitVec 8) (s : State) : Host.Outcome State Fault Refusal :=
  withBank k s fun j =>
    match overwriteHeader d s.portA Packet.putDst j s with
    | .error e => .next e
    | .ok s1 =>
      match overwriteHeader t s.portB Packet.putTyp j s1 with
      | .error e => .next e
      | .ok s2 => sendStamped j s2

/-- Rule R162, `D = 0`, `T = 0`. -/
def execSend (k : BitVec 8) (s : State) : Host.Outcome State Fault Refusal := sendForm false false k s

/-- Rule R162, `D = 0`, `T = 1`. -/
def execSendT (k : BitVec 8) (s : State) : Host.Outcome State Fault Refusal := sendForm false true k s

/-- Rule R162, `D = 1`, `T = 0`. -/
def execSendD (k : BitVec 8) (s : State) : Host.Outcome State Fault Refusal := sendForm true false k s

/-- Rule R162, `D = 1`, `T = 1`. -/
def execSendDT (k : BitVec 8) (s : State) : Host.Outcome State Fault Refusal := sendForm true true k s

end Sys2Proof.Machine
end

