-- ==== Sys2Proof/Machine/Text.lean ====
section
/-!
DEFINITION. SETSTRING and GETSTRING, at the byte level (spec/43_string_ops.md; rule R152: the host converts UTF-8).
-/

namespace Sys2Proof.Machine

/-- Rule R80: the byte that ends a string payload. -/
def terminator : Byte := 0x00#8

/-- Rule R151: the text before the terminator, where the last payload byte is one. -/
def textOf (p : List Byte) : Option (List Byte) :=
  if p.getLast? = some terminator then some p.dropLast else none

/-- Rule R150. -/
def execSetString (k : BitVec 8) (s : State) : Host.Outcome State Fault Refusal :=
  withBank k s fun j => .next (storePayload j (s.portData ++ [terminator]) s)

/-- Rule R151. -/
def execGetString (k : BitVec 8) (s : State) : Host.Outcome State Fault Refusal :=
  withBank k s fun j => readPayload j s fun p =>
    match textOf p with
    | some t => s.finish (.okBytes t)
    | none => s.raise .format .none

end Sys2Proof.Machine
end

