-- ==== Sys2Proof/Machine/Dispatch.lean ====
section
/-!
DEFINITION. One arm for each instruction, each a direct call of its meaning.
-/

namespace Sys2Proof.Machine

def exec (i : Instr) (s : State) : Host.Outcome State Fault Refusal :=
  match i with
  | .clear k => Sys2Proof.Machine.execClear k s
  | .setSource k => Sys2Proof.Machine.execSetSource k s
  | .setDestination k => Sys2Proof.Machine.execSetDestination k s
  | .setType k => Sys2Proof.Machine.execSetType k s
  | .getSource k => Sys2Proof.Machine.execGetSource k s
  | .getDestination k => Sys2Proof.Machine.execGetDestination k s
  | .getType k => Sys2Proof.Machine.execGetType k s
  | .setData k => Sys2Proof.Machine.execSetData k s
  | .getData k => Sys2Proof.Machine.execGetData k s
  | .setString k => Sys2Proof.Machine.execSetString k s
  | .getString k => Sys2Proof.Machine.execGetString k s
  | .setAddress => Sys2Proof.Machine.execSetAddress s
  | .getAddress => Sys2Proof.Machine.execGetAddress s
  | .send k => Sys2Proof.Machine.execSend k s
  | .sendT k => Sys2Proof.Machine.execSendT k s
  | .sendD k => Sys2Proof.Machine.execSendD k s
  | .sendDT k => Sys2Proof.Machine.execSendDT k s
  | .receive k => Sys2Proof.Machine.execReceive k s
  | .setInteger1U k => Sys2Proof.Machine.execSetInteger1U k s
  | .setInteger2U k => Sys2Proof.Machine.execSetInteger2U k s
  | .setInteger4U k => Sys2Proof.Machine.execSetInteger4U k s
  | .setInteger8U k => Sys2Proof.Machine.execSetInteger8U k s
  | .setInteger1S k => Sys2Proof.Machine.execSetInteger1S k s
  | .setInteger2S k => Sys2Proof.Machine.execSetInteger2S k s
  | .setInteger4S k => Sys2Proof.Machine.execSetInteger4S k s
  | .setInteger8S k => Sys2Proof.Machine.execSetInteger8S k s
  | .getInteger1U k => Sys2Proof.Machine.execGetInteger1U k s
  | .getInteger2U k => Sys2Proof.Machine.execGetInteger2U k s
  | .getInteger4U k => Sys2Proof.Machine.execGetInteger4U k s
  | .getInteger8U k => Sys2Proof.Machine.execGetInteger8U k s
  | .getInteger1S k => Sys2Proof.Machine.execGetInteger1S k s
  | .getInteger2S k => Sys2Proof.Machine.execGetInteger2S k s
  | .getInteger4S k => Sys2Proof.Machine.execGetInteger4S k s
  | .getInteger8S k => Sys2Proof.Machine.execGetInteger8S k s
  | .reserved00 k => Sys2Proof.Machine.execReserved00 k s
  | .reserved0E x k => Sys2Proof.Machine.execReserved0E x k s
  | .reserved14 x k => Sys2Proof.Machine.execReserved14 x k s
  | .reserved19 k => Sys2Proof.Machine.execReserved19 k s
  | .reserved1A x k => Sys2Proof.Machine.execReserved1A x k s
  | .reserved1C x k => Sys2Proof.Machine.execReserved1C x k s
  | .reserved30 x k => Sys2Proof.Machine.execReserved30 x k s
  | .reserved40 x k => Sys2Proof.Machine.execReserved40 x k s
  | .reserved80 x k => Sys2Proof.Machine.execReserved80 x k s
  | .frame rest => Sys2Proof.Machine.execFrame rest s
  | .frameFalseSyn ll => Sys2Proof.Machine.execFrameFalseSyn ll s

end Sys2Proof.Machine
end

