-- ==== Sys2Proof/Machine/Step.lean ====
section
/-!
DEFINITION. One step of the machine (spec/70_reset_and_hazards.md rule R270): one command issue, or one transport answer.
The block has no program counter and fetches no instructions (spec/10_state.md rule R23): between commands a step takes
the host's next command from the command port, decodes it and executes it; while a RECEIVE or a SEND is in progress, no
other command runs (rule R52) and a step takes one answer of the transport.
-/

namespace Sys2Proof.Machine

/-- Between commands: the host's next command is issued and executed; a word that is no instruction is refused (rule R83).
Without a command the block waits, and nothing changes. -/
def issue (s : State) : Host.Outcome State Fault Refusal :=
  match s.cmds with
  | [] => .next s
  | c :: rest =>
    match decodeCommand c.word with
    | .ok i => exec i (s.issued c rest)
    | .error _ => .next (s.issued c rest).illegalCommand

/-- A step without reset: SEND waits for the transmit transport, RECEIVE for the receive transport, else a command. -/
def advance (s : State) : Host.Outcome State Fault Refusal :=
  match s.txs with
  | .emit => txAnswer s
  | .idle =>
    match s.rxs with
    | .idle => issue s
    | .seekSyn | .readLen | .readBody => .next (rxRead s)

/-- One step. A reset sample that is asserted takes the whole step, whatever is in progress (rule R260). -/
def step (s : State) : Host.Outcome State Fault Refusal :=
  match s.resetLine.head? with
  | some .assert => .next s.tick.resetEvent
  | some .low | none => advance s.tick

/-- The state in which the next step runs the instruction of a table word, numbered as for `decodeTableWord`: a command
word is the host's next command, its operand ports 0 and empty, the block between commands; a byte of the receive stream
(8 bits) is the receive transport's next answer, a RECEIVE in progress and seeking SYN. -/
def State.withFetchWord (s : State) (nbits w : Nat) : State :=
  if nbits = 8 then
    { s with rxs := .seekSyn, txs := .idle, rx := .byte (BitVec.ofNat 8 w) :: s.rx, resetLine := [] }
  else
    { s with rxs := .idle, txs := .idle, resetLine := [],
             cmds := { word := BitVec.ofNat 16 w, a := 0, b := 0, data := [] } :: s.cmds }

end Sys2Proof.Machine
end

