-- ==== Sys2Proof/Safety.lean ====
section
/-!
DEFINITION. The terms in which claims are made: what a host can observe of a bank (spec/10_state.md rule R10), what "unchanged"
means for each part of the state, how a command ends, the invariant of the machine, and when two states cannot be told
apart.
-/

namespace Sys2Proof.Machine

/-! ## Banks as the host sees them -/

/-- Rule R10: the abstract value of a bank; `payload` is nothing for `Unset`. -/
structure AbsPacket where
  src : Byte
  dst : Byte
  typ : Byte
  payload : Option (List Byte)
  deriving DecidableEq, Repr

/-- Rule R10: the abstract value that a bank's registers hold. -/
def Packet.abs (p : Packet) : AbsPacket :=
  { src := p.src, dst := p.dst, typ := p.typ,
    payload := if p.pset then some (p.pay.readN 0 p.plen.toNat) else none }

/-- The 8-bit bank field of a command word that names bank `j` (rule R81). -/
def bankField (j : BankIx) : BitVec 8 := BitVec.ofNat 8 j.val

/-! ## What is unchanged -/

/-- Two byte spaces read the same everywhere. -/
def SameBytes (m m' : Memory) : Prop := ∀ i, m'.read i = m.read i

/-- `SRC`, `DST` and `TYP` are unchanged. -/
def SameHeader (p p' : Packet) : Prop := p'.src = p.src ∧ p'.dst = p.dst ∧ p'.typ = p.typ

/-- `PSET`, `PLEN` and every byte of `PAY` are unchanged. -/
def SamePayload (p p' : Packet) : Prop := p'.pset = p.pset ∧ p'.plen = p.plen ∧ SameBytes p.pay p'.pay

/-- Every register of a bank is unchanged. -/
def SamePacket (p p' : Packet) : Prop := SameHeader p p' ∧ SamePayload p p'

/-- Every bank but bank `j` is unchanged. -/
def SameBanksBut (j : BankIx) (s s' : State) : Prop := ∀ k, k ≠ j → SamePacket (s.bank k) (s'.bank k)

/-- Every bank is unchanged. -/
def SameBanks (s s' : State) : Prop := ∀ k, SamePacket (s.bank k) (s'.bank k)

/-- The hidden registers of the receive engine other than `RXS` are unchanged. -/
def SameRxEngine (s s' : State) : Prop :=
  s'.rxlen = s.rxlen ∧ s'.rxcnt = s.rxcnt ∧ s'.rxsum = s.rxsum ∧ s'.rxk = s.rxk ∧ SameBytes s.rxbuf s'.rxbuf

/-- The hidden registers of the transmit engine other than `TXS` are unchanged. -/
def SameTxEngine (s s' : State) : Prop := s'.txn = s.txn ∧ s'.txpos = s.txpos ∧ SameBytes s.txbuf s'.txbuf

/-- No stream event was read and no byte written. -/
def SameStreams (s s' : State) : Prop := s'.rx = s.rx ∧ s'.tx = s.tx ∧ s'.txAns = s.txAns

/-- The command port, the operand ports and the reset input are as they were. -/
def SamePorts (s s' : State) : Prop :=
  s'.cmds = s.cmds ∧ s'.portA = s.portA ∧ s'.portB = s.portB ∧ s'.portData = s.portData ∧ s'.resetLine = s.resetLine

/-- Everything but the banks, STATUS, the result port and the engines' states `RXS` and `TXS` is unchanged. -/
def SameOutsideBanks (s s' : State) : Prop :=
  s'.laddr = s.laddr ∧ SameRxEngine s s' ∧ SameTxEngine s s' ∧ SameStreams s s' ∧ SamePorts s s'

/-! ## How a command ends -/

/-- Rules R87, R220 and R232: the command ends with this code in STATUS and this completion on the result port, and the block
is between commands. -/
def Ends (s s' : State) (code : Byte) (e : Ending) : Prop :=
  s'.status = code ∧ s'.results = s.results ++ [⟨code, e⟩] ∧ s'.rxs = .idle ∧ s'.txs = .idle

/-- The command ends with `Ok` or `Ok(value)`. -/
def EndsOk (s s' : State) (e : Ending) : Prop := Ends s s' codeOk e

/-- The command ends with a fault. -/
def EndsFault (s s' : State) (f : FaultName) (info : FaultInfo) : Prop := Ends s s' f.code (.fault f info)

/-- The ending is a fault. -/
def Ending.isFault : Ending → Bool
  | .fault _ _ => true
  | .ok | .okByte _ | .okInt _ | .okBytes _ | .noPacket => false

/-- No reset sample is asserted in the next step. -/
def NoReset (s : State) : Prop := s.resetLine.head? ≠ some .assert

/-- Rule R23: the bytes of the frame being written that are on the transmit stream; none where no SEND is in progress. -/
def State.sentOfFrame (s : State) : List Byte :=
  match s.txs with
  | .idle => []
  | .emit => s.txbuf.readN 0 (min s.txpos.toNat s.txn.toNat)

/-- The block is between commands. -/
def Between (s : State) : Prop := s.rxs = .idle ∧ s.txs = .idle

/-! ## The invariant -/

/-- Rules R16 and R17: a bank's registers are in range and its payload buffer in canonical form. -/
def Packet.Inv (p : Packet) : Prop :=
  p.pay.wf Config.MAX_DATA_LEN = true ∧ p.plen.toNat ≤ Config.MAX_DATA_LEN ∧ (p.pset = false → p.plen = 0x00#8)

/-- Rule R21: in `READ_BODY` the candidate's LEN is 4 or more, `RXCNT` is below it, and `RXSUM` is the sum modulo 256 of the
body bytes taken so far (as long as `RXBUF` holds them all). -/
def State.RxInv (s : State) : Prop :=
  s.rxs = .readBody →
    Config.LEN_OVERHEAD ≤ s.rxlen.toNat ∧ s.rxcnt.toNat < s.rxlen.toNat ∧
    (s.rxcnt.toNat ≤ Config.RXBUF_SIZE → s.rxsum = chk (s.rxbuf.readN 0 s.rxcnt.toNat))

/-- Rules R22 and R23: while a SEND is in progress, `TXBUF[0..TXN-1]` is the frame of one of the banks, `LADDR` its source, the
position lies in it, and the bytes before the position are the last ones on the transmit stream. -/
def State.TxInv (s : State) : Prop :=
  s.txs = .emit →
    ∃ (k : BankIx) (p before : List Byte), (s.bank k).abs.payload = some p ∧ (s.bank k).src = s.laddr ∧
      s.loadedFrame = some (encodeFrame (s.bank k).dst s.laddr (s.bank k).typ p) ∧
      s.txpos.toNat ≤ p.length + Config.FRAME_OVERHEAD ∧
      s.tx = before ++ (encodeFrame (s.bank k).dst s.laddr (s.bank k).typ p).take s.txpos.toNat

/-- The invariant of the machine. -/
def State.Inv (s : State) : Prop :=
  (∀ k, (s.bank k).Inv) ∧ s.rxbuf.wf Config.RXBUF_SIZE = true ∧ s.txbuf.wf Config.MAX_FRAME = true ∧
  s.status ∈ completionCodes ∧ (s.rxs = .idle ∨ s.txs = .idle) ∧ s.RxInv ∧ s.TxInv

/-- A run is safe as long as every step goes on: the machine neither stops with a fault nor refuses. -/
def State.GoesOn (s : State) : Prop := ∃ t, step s = .next t

/-! ## States that cannot be told apart -/

/-- Rules R10, R17, R21, R22 and R25: two states agree on everything that a rule can read. The contents of `PAY` at or above
`PLEN` and while `PSET = 0`, and the hidden engine registers while they are not live, may differ. -/
structure Alike (s s' : State) : Prop where
  banks : ∀ k, (s'.bank k).abs = (s.bank k).abs
  laddr : s'.laddr = s.laddr
  status : s'.status = s.status
  results : s'.results = s.results
  streams : SameStreams s s'
  ports : SamePorts s s'
  rxs : s'.rxs = s.rxs
  txs : s'.txs = s.txs
  rxk : s.rxs ≠ .idle → s'.rxk = s.rxk
  body : s.rxs = .readBody →
    Config.LEN_OVERHEAD ≤ s.rxlen.toNat ∧ s'.rxlen = s.rxlen ∧ s'.rxcnt = s.rxcnt ∧ s'.rxsum = s.rxsum ∧
    ∀ i, i < s.rxcnt.toNat → i < Config.RXBUF_SIZE → s'.rxbuf.read i = s.rxbuf.read i
  frame : s.txs = .emit → s'.loadedFrame = s.loadedFrame ∧ s'.txn = s.txn ∧ s'.txpos = s.txpos ∧
    s'.txbuf.readN 0 s.txn.toNat = s.txbuf.readN 0 s.txn.toNat

/-- An outcome, its next state (where it has one) changed by `f`. -/
def onNext (f : State → State) : Host.Outcome State Fault Refusal → Host.Outcome State Fault Refusal
  | .next t => .next (f t)
  | .fault x => .fault x
  | .refused r => .refused r

/-- Two outcomes that a host cannot tell apart: next states that agree, or the same stop. -/
def AlikeOutcomes (o o' : Host.Outcome State Fault Refusal) : Prop :=
  match o, o' with
  | .next t, .next t' => Alike t t'
  | .fault f, .fault f' => f = f'
  | .refused r, .refused r' => r = r'
  | _, _ => False

end Sys2Proof.Machine
end

