-- ==== Sys2Proof/Certificates/Slice0/Obligations.lean ====
section
/-!
DEFINITION. The statements about the machine. The spec's numeric completion codes, command words and opcode numbers are its
own decisions (spec/92_eei_decisions.md D3 and D21): where a statement says `codeOk`, `codeEofSeek` or `FaultName.code` the
number behind it is the one that StatusIsTheLastCompletionCode states.
-/

open Sys2Proof Sys2Proof.Machine

/-! ## The instructions, grouped -/

/-- The three header-byte setters with the register each writes (rules R102, R103 and R104). -/
def Sys2Proof.Machine.headerSetters : List ((BitVec 8 → Instr) × (Packet → Byte)) :=
  [(.setSource, Packet.src), (.setDestination, Packet.dst), (.setType, Packet.typ)]

/-- The three header-byte getters with the register each reads (rules R105, R106 and R107). -/
def Sys2Proof.Machine.headerGetters : List ((BitVec 8 → Instr) × (Packet → Byte)) :=
  [(.getSource, Packet.src), (.getDestination, Packet.dst), (.getType, Packet.typ)]

/-- The eight forms of SETINTEGER with their width and signedness (rule R132). -/
def Sys2Proof.Machine.integerSetters : List ((BitVec 8 → Instr) × Nat × Sign) :=
  [(.setInteger1U, 1, .U), (.setInteger2U, 2, .U), (.setInteger4U, 4, .U), (.setInteger8U, 8, .U),
   (.setInteger1S, 1, .S), (.setInteger2S, 2, .S), (.setInteger4S, 4, .S), (.setInteger8S, 8, .S)]

/-- The eight forms of GETINTEGER with their width and signedness (rule R133). -/
def Sys2Proof.Machine.integerGetters : List ((BitVec 8 → Instr) × Nat × Sign) :=
  [(.getInteger1U, 1, .U), (.getInteger2U, 2, .U), (.getInteger4U, 4, .U), (.getInteger8U, 8, .U),
   (.getInteger1S, 1, .S), (.getInteger2S, 2, .S), (.getInteger4S, 4, .S), (.getInteger8S, 8, .S)]

/-- The four forms of SEND with their `D` and `T` bits (rule R162). -/
def Sys2Proof.Machine.sendForms : List ((BitVec 8 → Instr) × Bool × Bool) :=
  [(.send, false, false), (.sendT, false, true), (.sendD, true, false), (.sendDT, true, true)]

/-- Every command that names a bank and is no SEND. -/
def Sys2Proof.Machine.plainBankCommands : List (BitVec 8 → Instr) :=
  [.clear, .setSource, .setDestination, .setType, .getSource, .getDestination, .getType, .setData, .getData,
   .setString, .getString, .receive,
   .setInteger1U, .setInteger2U, .setInteger4U, .setInteger8U, .setInteger1S, .setInteger2S, .setInteger4S,
   .setInteger8S, .getInteger1U, .getInteger2U, .getInteger4U, .getInteger8U, .getInteger1S, .getInteger2S,
   .getInteger4S, .getInteger8S]

/-- Every command that names a bank (rule R83). -/
def Sys2Proof.Machine.bankCommands : List (BitVec 8 → Instr) :=
  plainBankCommands ++ [.send, .sendT, .sendD, .sendDT]

/-- An instruction of a reserved row (rule R83). -/
def Sys2Proof.Machine.ReservedInstr (i : Instr) : Prop :=
  (∃ k, i = .reserved00 k) ∨ (∃ x k, i = .reserved0E x k) ∨ (∃ x k, i = .reserved14 x k) ∨ (∃ k, i = .reserved19 k) ∨
  (∃ x k, i = .reserved1A x k) ∨ (∃ x k, i = .reserved1C x k) ∨ (∃ x k, i = .reserved30 x k) ∨
  (∃ x k, i = .reserved40 x k) ∨ (∃ x k, i = .reserved80 x k)

/-- Rule R83, in its own words: a reserved `OP`; or `K ≠ 0` in SETADDRESS or GETADDRESS; or `K ≥ NPKT` in a command that
names a bank. -/
def Sys2Proof.Machine.IllegalWord (w : CmdWord) : Prop :=
  let op := (opField w).toNat
  let k := (kField w).toNat
  (op = 0x00 ∨ (0x0E ≤ op ∧ op ≤ 0x0F) ∨ (0x14 ≤ op ∧ op ≤ 0x17) ∨ (0x19 ≤ op ∧ op ≤ 0x1F) ∨ 0x30 ≤ op) ∨
  ((op = 0x0C ∨ op = 0x0D) ∧ k ≠ 0) ∨
  (op ≠ 0x0C ∧ op ≠ 0x0D ∧ 2 ≤ k)

/-- Rule R162: the header byte of a frame and of the bank after SEND, the operand where one is given. -/
def Sys2Proof.Machine.headerAfter (given : Bool) (v : Int) (old : Byte) : Byte := if given then byteOf v else old

/-! ## Encodings -/

/-- Rules R70, R77, R82 and R83: no bit of an encoding is dropped. -/
def Obligations.DecodeOfEncodeIsTheInstruction : Prop :=
  ∀ i : Instr, i.wf = true → decode (encode i) = .ok (i, [])

/-- Rules R82 and R83: each command word has one meaning. -/
def Obligations.EncodeOfDecodeIsTheWord : Prop :=
  ∀ (w : CmdWord) (i : Instr), decodeCommand w = .ok i → encode i = .command w

/-- spec/opcode_table.json: a word that falls in a row decodes to that row's instruction, and the words in no row are those
of SETADDRESS and GETADDRESS with `K` not 0. -/
def Obligations.DecoderFollowsTheOpcodeTable : Prop :=
  (∀ (w : CmdWord) (r : TableRow), r ∈ tableRows → r.covers w = true →
    ∃ i, decodeCommand w = .ok i ∧ i.mnemonic = r.mnemonic) ∧
  (∀ w : CmdWord, (∀ r ∈ tableRows, r.covers w = false) ↔
    ((opField w = 0x0C#8 ∨ opField w = 0x0D#8) ∧ kField w ≠ 0#8)) ∧
  (∀ w : CmdWord, (opField w = 0x0C#8 ∨ opField w = 0x0D#8) → kField w ≠ 0#8 →
    decodeCommand w = .error (.addressCommandWithK (opField w) (kField w)))

/-- Rules R71, R72, R76 and R77: the stream decoder takes a candidate, or a false SYN match, from the front of the stream
and gives back the bytes after it. SYN alone is a candidate of which nothing more has arrived. With a LEN below 4 (`0x02`
included, decision D15) the two bytes are a false SYN match and nothing more. With a LEN of 4 or more exactly LEN more
bytes belong to the candidate, as many of them as have arrived. A byte other than SYN begins nothing. -/
def Obligations.WireDecoderSplitsTheStream : Prop :=
  (∀ (bytes more : List Byte) (i : Instr), decodeWire bytes = .ok (i, more) →
    i.wf = true ∧ ∃ used, encode i = .wire used ∧ used ++ more = bytes) ∧
  (∀ (b : Byte) (rest : List Byte), b ≠ 0x02#8 → decodeWire (b :: rest) = .error (.noise b)) ∧
  decodeWire [0x02#8] = .ok (.frame [], []) ∧
  (∀ (len : Byte) (body : List Byte), len.toNat < 4 →
    ∃ ll, ll.toNat = len.toNat ∧ decodeWire (0x02#8 :: len :: body) = .ok (.frameFalseSyn ll, body)) ∧
  (∀ (len : Byte) (body : List Byte), 4 ≤ len.toNat →
    decodeWire (0x02#8 :: len :: body) = .ok (.frame (len :: body.take len.toNat), body.drop len.toNat))

/-- Words written in the programs P1 to P4 and the vectors HDR-11 and HDR-12 of spec/95_test_vectors.md, and the frame of
vector TX-1. -/
def Obligations.SpecWordsDecode : Prop :=
  decodeCommand 0x0C00#16 = .ok .setAddress ∧ decodeCommand 0x0100#16 = .ok (.clear 0x00#8) ∧
  decodeCommand 0x0800#16 = .ok (.setData 0x00#8) ∧ decodeCommand 0x1300#16 = .ok (.sendDT 0x00#8) ∧
  decodeCommand 0x0500#16 = .ok (.getSource 0x00#8) ∧ decodeCommand 0x2200#16 = .ok (.setInteger4U 0x00#8) ∧
  decodeCommand 0x1801#16 = .ok (.receive 0x01#8) ∧ decodeCommand 0x2D01#16 = .ok (.getInteger2S 0x01#8) ∧
  decodeCommand 0x0B01#16 = .ok (.getString 0x01#8) ∧ decodeCommand 0x0102#16 = .ok (.clear 0x02#8) ∧
  decodeCommand 0x0002#16 = .ok (.reserved00 0x02#8) ∧
  decodeWire [0x02#8, 0x06#8, 0x02#8, 0x01#8, 0x0F#8, 0x41#8, 0x42#8, 0x95#8, 0xAA#8] =
    .ok (.frame [0x06#8, 0x02#8, 0x01#8, 0x0F#8, 0x41#8, 0x42#8, 0x95#8], [0xAA#8]) ∧
  decodeWire [0x02#8, 0x03#8, 0x02#8] = .ok (.frameFalseSyn 3#2, [0x02#8])

/-! ## The step -/

/-- Rules R23, R52, R81 and R84: between commands a step runs exactly the instruction that the host's next command word
decodes to, its operands on the ports. -/
def Obligations.StepRunsTheIssuedCommand : Prop :=
  ∀ (s : State) (c : Command) (rest : List Command) (i : Instr),
    NoReset s → Between s → s.cmds = c :: rest → decodeCommand c.word = .ok i →
    step s = exec i { s.tick with cmds := rest, portA := c.a, portB := c.b, portData := c.data }

/-- Rules R42, R43, R230 and R268: where the host has no command or a transport no answer, a step changes nothing but
the samples it used up. The model's choice: waiting is a step that changes nothing (notes/assumptions 1). -/
def Obligations.WaitingChangesNothing : Prop :=
  ∀ s : State, NoReset s →
    (Between s → s.cmds = [] → step s = .next s.tick) ∧
    (s.txs = .idle → s.rxs ≠ .idle → s.rx = [] → step s = .next s.tick) ∧
    (s.txs = .emit → s.txAns = [] → step s = .next s.tick) ∧
    (∀ f rest, s.txs = .emit → s.loadedFrame = some f → s.txAns = .pending 0 :: rest →
      step s = .next { s.tick with txAns := rest })

/-- Rules R44, R52 and R58: commands and stream bytes are taken in order, one at a time. A step that takes a command finds the
block between commands and takes the first one; a step that takes an answer of the receive transport has a RECEIVE in
progress and takes the next one; whatever is taken is gone. -/
def Obligations.CommandsAndBytesAreTakenInOrder : Prop :=
  ∀ s t : State, step s = .next t →
    (t.cmds = s.cmds ∨ (Between s ∧ NoReset s ∧ t.cmds = s.cmds.tail)) ∧
    (t.rx = s.rx ∨ (s.rxs ≠ .idle ∧ s.txs = .idle ∧ NoReset s ∧ t.rx = s.rx.tail))

/-! ## Reset -/

/-- Rule R25: the state after reset; the values of `LADDR`, `PLEN` and `STATUS` are decisions D13, D25 and D30. -/
def Obligations.ResetStateHoldsTheResetValues : Prop :=
  (∀ k, SameHeader Packet.empty (State.reset.bank k) ∧ (State.reset.bank k).pset = false ∧
    (State.reset.bank k).plen = 0x00#8 ∧ (State.reset.bank k).abs = ⟨0x00#8, 0x00#8, 0x00#8, none⟩) ∧
  State.reset.laddr = 0x00#8 ∧ State.reset.status = 0x00#8 ∧ Between State.reset

/-- Rule R260: reset, whatever is in progress. The command in progress is abandoned without a result; "the block does not touch
either stream at reset": consumed bytes stay consumed and written bytes stay written, those of a frame that was being
written among them. That reset takes a step of its own is the model's choice (notes/assumptions 9). -/
def Obligations.ResetAbandonsTheCommand : Prop :=
  ∀ (s : State) (rest : List ResetSample), s.resetLine = .assert :: rest →
    ∃ t, step s = .next t ∧ (∀ k, (t.bank k).abs = ⟨0x00#8, 0x00#8, 0x00#8, none⟩ ∧ (t.bank k).plen = 0x00#8) ∧
      t.laddr = 0x00#8 ∧ t.status = 0x00#8 ∧ Between t ∧ t.results = s.results ∧ SameStreams s t ∧ t.cmds = s.cmds ∧
      t.resetLine = rest ∧
      (∀ f, s.Inv → s.txs = .emit → s.loadedFrame = some f → ∃ before, t.tx = before ++ f.take s.txpos.toNat)

/-! ## Header and address commands -/

/-- Rule R101: CLEAR k, whole; everything outside bank `k` is unchanged. -/
def Obligations.ClearEmptiesTheBank : Prop :=
  ∀ (s : State) (j : BankIx), ∃ t, exec (.clear (bankField j)) s = .next t ∧ EndsOk s t .ok ∧
    (t.bank j).src = 0x00#8 ∧ (t.bank j).dst = 0x00#8 ∧ (t.bank j).typ = 0x00#8 ∧ (t.bank j).pset = false ∧
    (t.bank j).plen = 0x00#8 ∧ SameBytes (s.bank j).pay (t.bank j).pay ∧ SameBanksBut j s t ∧ SameOutsideBanks s t ∧
    (t.bank j).abs = (State.reset.bank j).abs

/-- Rules R102, R103, R104 and R221: SETSOURCE, SETDESTINATION and SETTYPE store a value of 0 to 255 in their own register
and touch nothing else; any other value ends with RangeError, its bounds and the value, and changes nothing
(decision D11). -/
def Obligations.HeaderSettersCheckThenStore : Prop :=
  ∀ c ∈ headerSetters, ∀ (s : State) (j : BankIx),
    (0 ≤ s.portA → s.portA ≤ 255 → ∃ t, exec (c.1 (bankField j)) s = .next t ∧ EndsOk s t .ok ∧
      ((c.2 (t.bank j)).toNat : Int) = s.portA ∧
      (∀ d ∈ headerSetters, d.2 (t.bank j) ≠ d.2 (s.bank j) → ∀ i, d.1 i = c.1 i) ∧
      SamePayload (s.bank j) (t.bank j) ∧ SameBanksBut j s t ∧ SameOutsideBanks s t) ∧
    (s.portA < 0 ∨ 255 < s.portA → ∃ t, exec (c.1 (bankField j)) s = .next t ∧
      EndsFault s t .range (.bounds 0 255 s.portA) ∧ SameBanks s t ∧ SameOutsideBanks s t)

/-- Rules R105, R106 and R107: GETSOURCE, GETDESTINATION and GETTYPE return the stored byte, whether or not a payload is
set, and change nothing. -/
def Obligations.HeaderGettersReturnTheByte : Prop :=
  ∀ c ∈ headerGetters, ∀ (s : State) (j : BankIx), ∃ t, exec (c.1 (bankField j)) s = .next t ∧
    EndsOk s t (.okByte (c.2 (s.bank j))) ∧ SameBanks s t ∧ SameOutsideBanks s t

/-- Rules R108 and R109 (decision D13): SETADDRESS checks one unsigned byte and stores it in `LADDR`; GETADDRESS returns
`LADDR`; no bank is touched. -/
def Obligations.AddressCommandsReachLaddr : Prop :=
  ∀ s : State,
    (0 ≤ s.portA → s.portA ≤ 255 → ∃ t, exec .setAddress s = .next t ∧ EndsOk s t .ok ∧
      (t.laddr.toNat : Int) = s.portA ∧ SameBanks s t ∧ SameRxEngine s t ∧ SameTxEngine s t ∧ SameStreams s t ∧
      SamePorts s t) ∧
    (s.portA < 0 ∨ 255 < s.portA → ∃ t, exec .setAddress s = .next t ∧
      EndsFault s t .range (.bounds 0 255 s.portA) ∧ SameBanks s t ∧ SameOutsideBanks s t) ∧
    (∃ t, exec .getAddress s = .next t ∧ EndsOk s t (.okByte s.laddr) ∧ SameBanks s t ∧ SameOutsideBanks s t)

/-- Rule R19: only SETADDRESS and reset change `LADDR`. -/
def Obligations.LaddrChangesOnlyBySetAddressOrReset : Prop :=
  ∀ s t : State, step s = .next t → t.laddr ≠ s.laddr →
    ¬ NoReset s ∨ ∃ c rest, Between s ∧ s.cmds = c :: rest ∧ c.word = 0x0C00#16 ∧ (t.laddr.toNat : Int) = c.a

/-- Rule R15: no command sets `PSET` to 0 other than CLEAR. -/
def Obligations.PsetIsClearedOnlyByClearOrReset : Prop :=
  ∀ (s t : State) (k : BankIx), step s = .next t → (s.bank k).pset = true → (t.bank k).pset = false →
    ¬ NoReset s ∨ ∃ c rest, Between s ∧ s.cmds = c :: rest ∧ decodeCommand c.word = .ok (.clear (bankField k))

/-! ## Illegal command words -/

/-- Rules R83 and R231 (decision D22): a command that names a bank out of range, and each of the nine reserved rows, ends with
`Fault(ILLEGAL_CMD)` before everything else and changes nothing but STATUS. -/
def Obligations.IllegalCommandsEndIllegal : Prop :=
  ∀ (s : State) (i : Instr), (ReservedInstr i ∨ ∃ c ∈ bankCommands, ∃ k : BitVec 8, 2 ≤ k.toNat ∧ i = c k) →
    ∃ t, exec i s = .next t ∧ EndsFault s t .illegalCmd .none ∧ SameBanks s t ∧ SameOutsideBanks s t

/-- Rule R83 (decisions D3 and D22): the step ends every illegal word, of whichever kind, with `Fault(ILLEGAL_CMD)`: no state
but STATUS changes, no stream event is read and no byte written. -/
def Obligations.StepRefusesEveryIllegalWord : Prop :=
  ∀ (s : State) (c : Command) (rest : List Command),
    NoReset s → Between s → s.cmds = c :: rest → IllegalWord c.word →
    ∃ t, step s = .next t ∧ EndsFault s t .illegalCmd .none ∧ SameBanks s t ∧ t.laddr = s.laddr ∧
      SameRxEngine s t ∧ SameTxEngine s t ∧ SameStreams s t ∧ t.cmds = rest

/-! ## Raw payload commands -/

/-- Rule R120: SETDATA k, s, whole: up to 128 bytes become the payload; more end with OverflowError, the payload
unmodified. -/
def Obligations.SetDataReplacesThePayload : Prop :=
  ∀ (s : State) (j : BankIx), (s.bank j).pay.wf 128 = true →
    (s.portData.length ≤ 128 → ∃ t, exec (.setData (bankField j)) s = .next t ∧ EndsOk s t .ok ∧
      (t.bank j).pset = true ∧ (t.bank j).plen.toNat = s.portData.length ∧
      (∀ i b, s.portData[i]? = some b → (t.bank j).pay.read i = b) ∧
      SameHeader (s.bank j) (t.bank j) ∧ SameBanksBut j s t ∧ SameOutsideBanks s t) ∧
    (128 < s.portData.length → ∃ t, exec (.setData (bankField j)) s = .next t ∧
      EndsFault s t .overflow (.limit 128) ∧ SameBanks s t ∧ SameOutsideBanks s t)

/-- Rule R121: GETDATA k, whole: NoDataError where no payload is set, else exactly the `PLEN` payload bytes; nothing
changes. -/
def Obligations.GetDataReturnsThePayload : Prop :=
  ∀ (s : State) (j : BankIx),
    ((s.bank j).pset = false → ∃ t, exec (.getData (bankField j)) s = .next t ∧ EndsFault s t .nodata .none ∧
      SameBanks s t ∧ SameOutsideBanks s t) ∧
    ((s.bank j).pset = true → (s.bank j).plen.toNat ≤ 128 → ∃ (t : State) (p : List Byte),
      exec (.getData (bankField j)) s = .next t ∧ EndsOk s t (.okBytes p) ∧ p.length = (s.bank j).plen.toNat ∧
      (∀ i, i < p.length → p[i]? = some ((s.bank j).pay.read i)) ∧ SameBanks s t ∧ SameOutsideBanks s t)

/-- Rule R41: an access outside 0 to 127 cannot be expressed. The model's choice (notes/assumptions 12): in a state that rule
R16 excludes, with `PLEN` above 128 and a payload set, the commands that read the whole payload stop. -/
def Obligations.PayloadReadOutsideTheBufferStops : Prop :=
  ∀ (s : State) (j : BankIx), (s.bank j).pset = true → 128 < (s.bank j).plen.toNat →
    exec (.getData (bankField j)) s = .fault .payloadIndex ∧
    exec (.getString (bankField j)) s = .fault .payloadIndex ∧
    exec (.send (bankField j)) s = .fault .payloadIndex ∧
    (0 ≤ s.portA → s.portA ≤ 255 → exec (.sendD (bankField j)) s = .fault .payloadIndex) ∧
    (0 ≤ s.portB → s.portB ≤ 255 → exec (.sendT (bankField j)) s = .fault .payloadIndex) ∧
    (0 ≤ s.portA → s.portA ≤ 255 → 0 ≤ s.portB → s.portB ≤ 255 →
      exec (.sendDT (bankField j)) s = .fault .payloadIndex)

/-- Rule R41, `MemWrite`: the commands that store a payload write its bytes and no other byte of `PAY`. That the other
bytes keep their values is the model's reading (notes/assumptions 14): no rule can observe them (rule R17). -/
def Obligations.PayloadStoresTouchOnlyTheirBytes : Prop :=
  ∀ (s t : State) (j : BankIx),
    (exec (.setData (bankField j)) s = .next t →
      ∀ i, s.portData.length ≤ i → (t.bank j).pay.read i = (s.bank j).pay.read i) ∧
    (exec (.setString (bankField j)) s = .next t →
      ∀ i, s.portData.length + 1 ≤ i → (t.bank j).pay.read i = (s.bank j).pay.read i) ∧
    (∀ c ∈ integerSetters, exec (c.1 (bankField j)) s = .next t →
      ∀ i, c.2.1 ≤ i → (t.bank j).pay.read i = (s.bank j).pay.read i)

/-! ## Integers -/

/-- Rules R130, R131 and R136: the serializer and the deserializer are inverse on each other's ranges, for every byte count,
and the deserializer's result is in range. Two's complement is general knowledge the spec supplies (G1). -/
def Obligations.SerializerRoundTrips : Prop :=
  ∀ (n : Nat) (sg : Sign), 1 ≤ n →
    (∀ v : Int, RangeOK v n sg → (leSer n v).length = n ∧ leDes n sg (leSer n v) = v ∧
      leDes n .U (leSer n v) = v % 2 ^ (8 * n)) ∧
    (∀ bs : List Byte, bs.length = n → RangeOK (leDes n sg bs) n sg ∧ leSer n (leDes n sg bs) = bs)

/-- Rules R45, R46, R78 and R130: the byte at index 0 is the least significant one, and the first `m` bytes of a wider
integer are the encoding of its low `8m` bits. -/
def Obligations.IntegersAreLittleEndian : Prop :=
  ∀ (n m : Nat) (v : Int), m ≤ n → (leSer n v).take m = leSer m v ∧
    leDes m .U ((leSer n v).take m) = v % 2 ^ (8 * m) ∧
    (∀ i, i < n → ∃ b, (leSer n v)[i]? = some b ∧ b.toNat = (v % 2 ^ (8 * n)).toNat / 2 ^ (8 * i) % 256)

/-- Rule R132 (decisions D5 and D11): the eight forms of SETINTEGER. A value in range replaces the payload by its `n`
little-endian bytes; any other ends with RangeError, its bounds and the value, and changes nothing. -/
def Obligations.SetIntegerStoresTheEncoding : Prop :=
  ∀ c ∈ integerSetters, ∀ (s : State) (j : BankIx), (s.bank j).pay.wf 128 = true →
    (RangeOK s.portA c.2.1 c.2.2 → ∃ t, exec (c.1 (bankField j)) s = .next t ∧ EndsOk s t .ok ∧
      (t.bank j).abs.payload = some (leSer c.2.1 s.portA) ∧ SameHeader (s.bank j) (t.bank j) ∧
      SameBanksBut j s t ∧ SameOutsideBanks s t) ∧
    (¬ RangeOK s.portA c.2.1 c.2.2 → ∃ t, exec (c.1 (bankField j)) s = .next t ∧
      EndsFault s t .range (.bounds (rangeMin c.2.1 c.2.2) (rangeMax c.2.1 c.2.2) s.portA) ∧
      SameBanks s t ∧ SameOutsideBanks s t)

/-- Rule R133 (decisions D7 and D8): the eight forms of GETINTEGER: NoDataError, then DecodeError where the payload is shorter
than `n`, else the first `n` bytes decoded; nothing changes. -/
def Obligations.GetIntegerDecodesThePayload : Prop :=
  ∀ c ∈ integerGetters, ∀ (s : State) (j : BankIx),
    ((s.bank j).pset = false → ∃ t, exec (c.1 (bankField j)) s = .next t ∧ EndsFault s t .nodata .none ∧
      SameBanks s t ∧ SameOutsideBanks s t) ∧
    ((s.bank j).pset = true → (s.bank j).plen.toNat < c.2.1 → ∃ t, exec (c.1 (bankField j)) s = .next t ∧
      EndsFault s t .decode (.short c.2.1 (s.bank j).plen.toNat) ∧ SameBanks s t ∧ SameOutsideBanks s t) ∧
    (∀ p, (s.bank j).abs.payload = some p → c.2.1 ≤ p.length → ∃ t, exec (c.1 (bankField j)) s = .next t ∧
      EndsOk s t (.okInt (leDes c.2.1 c.2.2 (p.take c.2.1))) ∧ SameBanks s t ∧ SameOutsideBanks s t)

/-- Vector family INT of the spec (source property S3): what SETINTEGER.n.s stores, GETINTEGER.n.s of the same form returns,
and GETDATA returns its little-endian encoding. -/
def Obligations.SetThenGetIntegerReturnsTheValue : Prop :=
  ∀ p ∈ List.zip integerSetters integerGetters, ∀ (s : State) (j : BankIx),
    (s.bank j).pay.wf 128 = true → RangeOK s.portA p.1.2.1 p.1.2.2 →
    ∃ t u w, exec (p.1.1 (bankField j)) s = .next t ∧
      exec (p.2.1 (bankField j)) t = .next u ∧ EndsOk t u (.okInt s.portA) ∧
      exec (.getData (bankField j)) u = .next w ∧ EndsOk u w (.okBytes (leSer p.1.2.1 s.portA))

/-! ## Strings -/

/-- Rule R150: SETSTRING k, t, whole: `t` and a zero byte become the payload; more than 127 bytes end with OverflowError,
the payload unmodified. -/
def Obligations.SetStringStoresTextAndZero : Prop :=
  ∀ (s : State) (j : BankIx), (s.bank j).pay.wf 128 = true →
    (s.portData.length ≤ 127 → ∃ t, exec (.setString (bankField j)) s = .next t ∧ EndsOk s t .ok ∧
      (t.bank j).pset = true ∧ (t.bank j).plen.toNat = s.portData.length + 1 ∧
      (t.bank j).abs.payload = some (s.portData ++ [0x00#8]) ∧
      SameHeader (s.bank j) (t.bank j) ∧ SameBanksBut j s t ∧ SameOutsideBanks s t) ∧
    (127 < s.portData.length → ∃ t, exec (.setString (bankField j)) s = .next t ∧
      EndsFault s t .overflow (.limit 128) ∧ SameBanks s t ∧ SameOutsideBanks s t)

/-- Rule R151 (decision D9): GETSTRING k: NoDataError; FormatError where the payload is empty or does not end in zero; else
all bytes before the last one; nothing changes. -/
def Obligations.GetStringReturnsTheText : Prop :=
  ∀ (s : State) (j : BankIx),
    ((s.bank j).pset = false → ∃ t, exec (.getString (bankField j)) s = .next t ∧ EndsFault s t .nodata .none ∧
      SameBanks s t ∧ SameOutsideBanks s t) ∧
    (∀ p, (s.bank j).abs.payload = some p → p.length ≤ 128 → p.getLast? ≠ some 0x00#8 →
      ∃ t, exec (.getString (bankField j)) s = .next t ∧ EndsFault s t .format .none ∧
        SameBanks s t ∧ SameOutsideBanks s t) ∧
    (∀ x, (s.bank j).abs.payload = some (x ++ [0x00#8]) → x.length ≤ 127 →
      ∃ t, exec (.getString (bankField j)) s = .next t ∧ EndsOk s t (.okBytes x) ∧
        SameBanks s t ∧ SameOutsideBanks s t)

/-! ## The send path -/

/-- Rule R160: the checksum is an 8-bit accumulator cleared to 0, to which each byte is added with the carry out discarded,
and that is the sum of the bytes modulo 256. -/
def Obligations.ChecksumIsTheByteSum : Prop :=
  ∀ bs : List Byte, chk bs = bs.foldl (· + ·) 0x00#8 ∧ (chk bs).toNat = (bs.map BitVec.toNat).sum % 256

/-- Rules R70, R72, R74, R75 and R76: the layout of the frame, offset by offset, its length, and no overflow of LEN. -/
def Obligations.FrameLayoutIsTheSpecs : Prop :=
  ∀ (dst src typ : Byte) (p : List Byte), p.length ≤ 128 →
    let f := encodeFrame dst src typ p
    f.length = p.length + 6 ∧ f[0]? = some 0x02#8 ∧ (∃ len, f[1]? = some len ∧ len.toNat = p.length + 4) ∧
    f[2]? = some dst ∧ f[3]? = some src ∧ f[4]? = some typ ∧ (∀ i, i < p.length → f[5 + i]? = p[i]?) ∧
    ∃ c, f[5 + p.length]? = some c ∧
      c.toNat = (dst.toNat + src.toNat + typ.toNat + (p.map BitVec.toNat).sum) % 256

/-- Rules R162 and R166 (decision D12): the four forms of SEND that end with `Ok`: the operands given overwrite `DST` and `TYP`,
`SRC` is stamped with `LADDR`, the transmit stream grows by exactly that frame; the payload, `LADDR`, the other bank and
the receive engine are unchanged. -/
def Obligations.SendWritesTheFrame : Prop :=
  ∀ c ∈ sendForms, ∀ (s : State) (j : BankIx) (p : List Byte) (rest : List TxAnswer),
    s.txbuf.wf 134 = true → (s.bank j).abs.payload = some p → p.length ≤ 128 →
    (c.2.1 = true → 0 ≤ s.portA ∧ s.portA ≤ 255) → (c.2.2 = true → 0 ≤ s.portB ∧ s.portB ≤ 255) →
    s.txAns = .done :: rest →
    ∃ t, exec (c.1 (bankField j)) s = .next t ∧ EndsOk s t .ok ∧
      (t.bank j).dst = headerAfter c.2.1 s.portA (s.bank j).dst ∧
      (t.bank j).typ = headerAfter c.2.2 s.portB (s.bank j).typ ∧
      (t.bank j).src = s.laddr ∧ SamePayload (s.bank j) (t.bank j) ∧ SameBanksBut j s t ∧ t.laddr = s.laddr ∧
      t.tx = s.tx ++ encodeFrame (t.bank j).dst s.laddr (t.bank j).typ p ∧
      t.txAns = rest ∧ t.rx = s.rx ∧ SameRxEngine s t ∧ SamePorts s t

/-- Rules R43 and R165 (decision D20): when the transmit transport fails, the SEND ends with TransportFailure after its header
overwrites, and some prefix of the frame, from empty to whole, has been transmitted; which one is an input of the model
(notes/assumptions 7), so that every prefix is possible. -/
def Obligations.FailedSendWritesAPrefix : Prop :=
  ∀ c ∈ sendForms, ∀ (s : State) (j : BankIx) (p : List Byte) (n : Nat) (rest : List TxAnswer),
    s.txbuf.wf 134 = true → (s.bank j).abs.payload = some p → p.length ≤ 128 →
    (c.2.1 = true → 0 ≤ s.portA ∧ s.portA ≤ 255) → (c.2.2 = true → 0 ≤ s.portB ∧ s.portB ≤ 255) →
    s.txAns = .ioerr n :: rest →
    ∃ t, exec (c.1 (bankField j)) s = .next t ∧ EndsFault s t .transport .none ∧
      (t.bank j).dst = headerAfter c.2.1 s.portA (s.bank j).dst ∧
      (t.bank j).typ = headerAfter c.2.2 s.portB (s.bank j).typ ∧
      (t.bank j).src = s.laddr ∧ SamePayload (s.bank j) (t.bank j) ∧ SameBanksBut j s t ∧
      t.tx = s.tx ++ (encodeFrame (t.bank j).dst s.laddr (t.bank j).typ p).take n ∧ t.txAns = rest

/-- Rules R162 and R231 (decision D12): the faults of SEND before `TxWrite`, in the order of its tests, and what each leaves: on
a bad `d` nothing is changed; on a bad `t` the destination has been overwritten; with no payload set `DST`, `TYP` and
`SRC` have been overwritten. Nothing is transmitted. -/
def Obligations.SendFaultsInOrder : Prop :=
  ∀ c ∈ sendForms, ∀ (s : State) (j : BankIx),
    (c.2.1 = true → s.portA < 0 ∨ 255 < s.portA → ∃ t, exec (c.1 (bankField j)) s = .next t ∧
      EndsFault s t .range (.bounds 0 255 s.portA) ∧ SameBanks s t ∧ SameOutsideBanks s t) ∧
    ((c.2.1 = true → 0 ≤ s.portA ∧ s.portA ≤ 255) → c.2.2 = true → s.portB < 0 ∨ 255 < s.portB →
      ∃ t, exec (c.1 (bankField j)) s = .next t ∧ EndsFault s t .range (.bounds 0 255 s.portB) ∧
        (t.bank j).dst = headerAfter c.2.1 s.portA (s.bank j).dst ∧ (t.bank j).typ = (s.bank j).typ ∧
        (t.bank j).src = (s.bank j).src ∧ SamePayload (s.bank j) (t.bank j) ∧ SameBanksBut j s t ∧
        SameOutsideBanks s t) ∧
    ((c.2.1 = true → 0 ≤ s.portA ∧ s.portA ≤ 255) → (c.2.2 = true → 0 ≤ s.portB ∧ s.portB ≤ 255) →
      (s.bank j).pset = false →
      ∃ t, exec (c.1 (bankField j)) s = .next t ∧ EndsFault s t .nodata .none ∧
        (t.bank j).dst = headerAfter c.2.1 s.portA (s.bank j).dst ∧
        (t.bank j).typ = headerAfter c.2.2 s.portB (s.bank j).typ ∧ (t.bank j).src = s.laddr ∧
        SamePayload (s.bank j) (t.bank j) ∧ SameBanksBut j s t ∧ SameOutsideBanks s t)

/-- Rules R22, R23, R162 and R163 (decision D12): a SEND whose transport has not answered waits with its header overwrites made,
the whole frame, built from them, in `TXBUF`, and no completion presented; the bytes that the transport has transmitted so
far are on the stream, in offset order from SYN on, and the position in the frame is their number. It then goes on from
there: with further bytes and still no answer; with `Done`, when the stream is longer by exactly the frame (rules R43 and
R166); with `IOERR`, when some prefix of it, what was out already included, is on the stream and the command ends with
TransportFailure (rule R165). How many bytes go out in a step is an input of the model (notes/assumptions 7), that the
answer comes in a step of its own its choice (notes/assumptions 8), the register `txpos` too (notes/assumptions 23). -/
def Obligations.WaitingSendHoldsTheFrame : Prop :=
  ∀ c ∈ sendForms, ∀ (s : State) (j : BankIx) (p : List Byte) (n : Nat) (rest : List TxAnswer),
    s.txbuf.wf 134 = true → s.resetLine = [] → (s.bank j).abs.payload = some p → p.length ≤ 128 →
    (c.2.1 = true → 0 ≤ s.portA ∧ s.portA ≤ 255) → (c.2.2 = true → 0 ≤ s.portB ∧ s.portB ≤ 255) →
    (s.txAns = .pending n :: rest ∨ s.txAns = [] ∧ rest = [] ∧ n = 0) →
    let dst := headerAfter c.2.1 s.portA (s.bank j).dst
    let typ := headerAfter c.2.2 s.portB (s.bank j).typ
    let frame := encodeFrame dst s.laddr typ p
    ∃ t, exec (c.1 (bankField j)) s = .next t ∧ t.txs = .emit ∧ t.loadedFrame = some frame ∧
      t.txn.toNat = p.length + 6 ∧ t.txpos.toNat = min n (p.length + 6) ∧
      t.results = s.results ∧ t.status = s.status ∧ t.rxs = s.rxs ∧
      (t.bank j).dst = dst ∧ (t.bank j).typ = typ ∧ (t.bank j).src = s.laddr ∧ SamePayload (s.bank j) (t.bank j) ∧
      SameBanksBut j s t ∧ t.laddr = s.laddr ∧ SameRxEngine s t ∧ SamePorts s t ∧ t.rx = s.rx ∧
      t.tx = s.tx ++ frame.take n ∧ t.txAns = rest ∧
      (∀ m more, rest = .pending m :: more → ∃ u, step t = .next u ∧ u.txs = .emit ∧ u.loadedFrame = some frame ∧
        u.txpos.toNat = min (n + m) (p.length + 6) ∧ u.results = s.results ∧ u.status = s.status ∧
        u.tx = s.tx ++ frame.take (n + m) ∧ u.txAns = more ∧ SameBanks t u ∧ u.laddr = s.laddr ∧ u.rx = s.rx) ∧
      (∀ more, rest = .done :: more → ∃ u, step t = .next u ∧ EndsOk t u .ok ∧ u.tx = s.tx ++ frame ∧
        u.txAns = more ∧ SameBanks t u ∧ u.laddr = s.laddr ∧ u.rx = s.rx) ∧
      (∀ m more, rest = .ioerr m :: more → ∃ u, step t = .next u ∧ EndsFault t u .transport .none ∧
        u.tx = s.tx ++ frame.take (n + m) ∧ u.txAns = more ∧ SameBanks t u ∧ u.laddr = s.laddr ∧ u.rx = s.rx)

/-- Rules R23, R43, R49 and R163, from any state that meets the invariant: a step adds to the transmit stream the next bytes of
one frame of 6 to 134 bytes, from the position in it on, and nothing else (`n` of them, none for most steps). Where it adds
any, the SEND goes on with the position moved past them, or ends with `Ok`, the frame then being whole, or with
TransportFailure; a SEND in progress that ends with `Ok` has its whole frame out. So bytes of two frames never mix, and
reset adds none (rule R260). How many go out in a step is an input of the model (notes/assumptions 7). -/
def Obligations.TransmitStreamGrowsByFrames : Prop :=
  ∀ s t : State, s.Inv → step s = .next t →
    ∃ (dst src typ : Byte) (p : List Byte) (n : Nat), p.length ≤ 128 ∧
      let f := encodeFrame dst src typ p
      let m := s.sentOfFrame.length
      (s.txs = .emit → s.loadedFrame = some f) ∧ s.sentOfFrame = f.take m ∧ t.tx = s.tx ++ (f.drop m).take n ∧
      (n = 0 ∨ (m + n = p.length + 6 ∧ t.results = s.results ++ [⟨codeOk, .ok⟩]) ∨
        t.results = s.results ++ [⟨FaultName.transport.code, .fault .transport .none⟩] ∨
        (t.txs = .emit ∧ t.results = s.results ∧ t.loadedFrame = some f ∧ t.sentOfFrame = f.take (m + n))) ∧
      (s.txs = .emit → t.results = s.results ++ [⟨codeOk, .ok⟩] → m + n = p.length + 6) ∧
      (¬ NoReset s → n = 0)

/-! ## The receive path -/

/-- Rule R181: RECEIVE k starts the receive machine in `SEEK_SYN` for bank `k`; no stream event is consumed and nothing else
changes. -/
def Obligations.ReceiveStartsInSeekSyn : Prop :=
  ∀ (s : State) (j : BankIx), exec (.receive (bankField j)) s = .next { s with rxk := j, rxs := .seekSyn }

/-- Rules R182, R183 and R184: the transitions of `SEEK_SYN`: noise is discarded, SYN starts a candidate, the end of the stream
ends the command with `NoPacket`. -/
def Obligations.SeekSynTransitions : Prop :=
  ∀ (s : State) (e : RxEvent) (rest : List RxEvent),
    NoReset s → s.txs = .idle → s.rxs = .seekSyn → s.rx = e :: rest →
    (∀ b, e = .byte b → b ≠ 0x02#8 → step s = .next { s.tick with rx := rest }) ∧
    (e = .byte 0x02#8 → step s = .next { s.tick with rx := rest, rxs := .readLen }) ∧
    (e = .eof → ∃ t, step s = .next t ∧ Ends s t codeEofSeek .noPacket ∧ SameBanks s t ∧ t.rx = rest)

/-- Rules R186 and R187 (decisions D15 and D17): the LEN byte: below 4 it is a false SYN match and both bytes are gone, a LEN of
`0x02` included; from 4 to 255 it is accepted and the body begins. -/
def Obligations.ReadLenTransitions : Prop :=
  ∀ (s : State) (len : Byte) (rest : List RxEvent),
    NoReset s → s.txs = .idle → s.rxs = .readLen → s.rx = .byte len :: rest →
    (len.toNat < 4 → step s = .next { s.tick with rx := rest, rxs := .seekSyn }) ∧
    (4 ≤ len.toNat → step s = .next
      { s.tick with rx := rest, rxs := .readBody, rxlen := len, rxcnt := 0x00#8, rxsum := 0x00#8 })

/-- Rule R189: a body byte that is not the last is stored at index `RXCNT` where that is at most 130, summed modulo 256 and
counted; no byte value is special. -/
def Obligations.BodyBytesAreSummedAndStaged : Prop :=
  ∀ (s : State) (b : Byte) (rest : List RxEvent),
    NoReset s → s.txs = .idle → s.rxs = .readBody → s.rx = .byte b :: rest → s.rxbuf.wf 131 = true →
    s.rxcnt.toNat < s.rxlen.toNat - 1 →
    ∃ t, step s = .next t ∧ t.rxs = .readBody ∧ t.rxlen = s.rxlen ∧ t.rxk = s.rxk ∧
      t.rxcnt.toNat = s.rxcnt.toNat + 1 ∧ t.rxsum.toNat = (s.rxsum.toNat + b.toNat) % 256 ∧
      (s.rxcnt.toNat ≤ 130 → t.rxbuf.read s.rxcnt.toNat = b) ∧
      (∀ i, i ≠ s.rxcnt.toNat ∨ 130 < s.rxcnt.toNat → t.rxbuf.read i = s.rxbuf.read i) ∧
      t.rx = rest ∧ SameBanks s t ∧ t.laddr = s.laddr ∧ t.status = s.status ∧ t.results = s.results ∧
      t.tx = s.tx ∧ t.txAns = s.txAns ∧ t.txs = s.txs ∧ SameTxEngine s t

/-- Rule R190: the last body byte differs from the sum: the candidate is discarded, the scan goes on, and nothing else
changes. -/
def Obligations.ChecksumMismatchResynchronizes : Prop :=
  ∀ (s : State) (c : Byte) (rest : List RxEvent),
    NoReset s → s.txs = .idle → s.rxs = .readBody → s.rx = .byte c :: rest →
    s.rxcnt.toNat = s.rxlen.toNat - 1 → c ≠ s.rxsum →
    step s = .next { s.tick with rx := rest, rxs := .seekSyn }

/-- Rule R191: a verified frame with `RXLEN ≤ 132` is materialised in bank `RXK`, whole, and the command ends with `Ok`. -/
def Obligations.VerifiedFrameIsMaterialised : Prop :=
  ∀ (s : State) (rest : List RxEvent),
    NoReset s → s.txs = .idle → s.rxs = .readBody → s.rx = .byte s.rxsum :: rest →
    s.rxcnt.toNat = s.rxlen.toNat - 1 → 4 ≤ s.rxlen.toNat → s.rxlen.toNat ≤ 132 →
    (s.bank s.rxk).pay.wf 128 = true →
    ∃ t, step s = .next t ∧ EndsOk s t .ok ∧ (t.bank s.rxk).dst = s.rxbuf.read 0 ∧
      (t.bank s.rxk).src = s.rxbuf.read 1 ∧ (t.bank s.rxk).typ = s.rxbuf.read 2 ∧ (t.bank s.rxk).pset = true ∧
      (t.bank s.rxk).plen.toNat = s.rxlen.toNat - 4 ∧
      (∀ i, i < s.rxlen.toNat - 4 → (t.bank s.rxk).pay.read i = s.rxbuf.read (3 + i)) ∧
      SameBanksBut s.rxk s t ∧ t.laddr = s.laddr ∧ t.rx = rest ∧ t.tx = s.tx

/-- Rule R192 (decision D17): a verified frame with `RXLEN > 132` ends the command with OverflowError; no bank changes. -/
def Obligations.OversizeFrameFaults : Prop :=
  ∀ (s : State) (rest : List RxEvent),
    NoReset s → s.txs = .idle → s.rxs = .readBody → s.rx = .byte s.rxsum :: rest →
    s.rxcnt.toNat = s.rxlen.toNat - 1 → 132 < s.rxlen.toNat →
    ∃ t, step s = .next t ∧ EndsFault s t .overflow (.limit 128) ∧ SameBanks s t ∧ t.laddr = s.laddr ∧ t.rx = rest

/-- Rules R188 and R193: the stream ends after a SYN byte, or inside a body whatever `RXCNT` is: `NoPacket`, the bank
unchanged. -/
def Obligations.EndOfStreamInsideAFrame : Prop :=
  ∀ (s : State) (rest : List RxEvent), NoReset s → s.txs = .idle → s.rx = .eof :: rest →
    (s.rxs = .readLen → ∃ t, step s = .next t ∧ Ends s t codeEofLen .noPacket ∧ SameBanks s t ∧ t.rx = rest) ∧
    (s.rxs = .readBody → ∃ t, step s = .next t ∧ Ends s t codeEofBody .noPacket ∧ SameBanks s t ∧ t.rx = rest)

/-- Rule R185 (decision D18): a transport failure in any state of a RECEIVE gives `NoPacket`; only the diagnostic code
differs from that of an end of stream. -/
def Obligations.ReceiveTransportFailureIsNoPacket : Prop :=
  ∀ (s : State) (rest : List RxEvent), NoReset s → s.txs = .idle → s.rxs ≠ .idle → s.rx = .ioerr :: rest →
    ∃ t, step s = .next t ∧ Ends s t codeIoerr .noPacket ∧ SameBanks s t ∧ t.laddr = s.laddr ∧ t.rx = rest

/-- Rule R200 (decision D19): a step that changes a bank while a RECEIVE is in progress, without reset, ends that RECEIVE with
`Ok`, and the bank is the one the RECEIVE named. -/
def Obligations.BanksChangeOnlyOnSuccess : Prop :=
  ∀ (s t : State) (k : BankIx), NoReset s → s.txs = .idle → s.rxs ≠ .idle → step s = .next t →
    t.bank k ≠ s.bank k → k = s.rxk ∧ s.rxs = .readBody ∧ EndsOk s t .ok

/-- Rules R70, R77, R190, R191 and R192: a complete candidate on the stream, the engine seeking SYN: discarded on a wrong
checksum, else delivered to the bank or, when oversize, a fault (decision D17). -/
def Obligations.CompleteFrameIsJudged : Prop :=
  ∀ (s : State) (len : Byte) (body : List Byte), s.rxs = .seekSyn → 4 ≤ len.toNat → body.length = len.toNat →
    s.rxbuf.wf 131 = true → (s.bank s.rxk).pay.wf 128 = true →
    let good := chk (body.take (len.toNat - 1)) = body.getD (len.toNat - 1) 0x00#8
    ∃ t, exec (.frame (len :: body)) s = .next t ∧ t.laddr = s.laddr ∧ SameStreams s t ∧ SamePorts s t ∧
      SameBanksBut s.rxk s t ∧ SameTxEngine s t ∧
      (¬ good → t.rxs = .seekSyn ∧ t.txs = s.txs ∧ t.results = s.results ∧ t.status = s.status ∧ SameBanks s t) ∧
      (good → len.toNat ≤ 132 → EndsOk s t .ok ∧
        (t.bank s.rxk).abs = ⟨body.getD 1 0x00#8, body.getD 0 0x00#8, body.getD 2 0x00#8,
          some ((body.drop 3).take (len.toNat - 4))⟩) ∧
      (good → 132 < len.toNat → EndsFault s t .overflow (.limit 128) ∧ SameBanks s t)

/-- Rule R195, its second sentence: while a candidate is incomplete, `RXCNT`, `RXSUM` and `RXBUF` are the count, the checksum
and the first bytes of the body taken so far. -/
def Obligations.StagingFollowsTheBody : Prop :=
  ∀ (s : State) (len : Byte) (body : List Byte), s.rxs = .seekSyn → 4 ≤ len.toNat → body.length < len.toNat →
    s.rxbuf.wf 131 = true →
    ∃ t, exec (.frame (len :: body)) s = .next t ∧ t.rxs = .readBody ∧ t.rxlen = len ∧
      t.rxcnt.toNat = body.length ∧ t.rxsum = chk body ∧
      (∀ i b, body[i]? = some b → i < 131 → t.rxbuf.read i = b) ∧ SameBanks s t ∧ t.laddr = s.laddr ∧
      t.status = s.status ∧ t.results = s.results ∧ SameStreams s t

/-- Rules R71 and R186 (decision D15): a false SYN match leaves the engine seeking SYN and nothing changed; the SYN byte alone
leaves it waiting for LEN. The model's choice (notes/assumptions 10, DEDUCED): where no RECEIVE is in progress, the bytes of
a frame or of a false match are put in front of the answers that already wait in `rx`. Rule R230 says only that bytes
which arrive then wait in the transport, and that the block neither sees nor counts them. -/
def Obligations.FrameBytesInTheOtherStates : Prop :=
  ∀ (s : State),
    (∀ ll, s.rxs = .seekSyn → exec (.frameFalseSyn ll) s = .next s) ∧
    (s.rxs = .seekSyn → exec (.frame []) s = .next { s with rxs := .readLen }) ∧
    (∀ rest, s.rxs = .idle → exec (.frame rest) s = .next { s with rx := (0x02#8 :: rest).map .byte ++ s.rx }) ∧
    (∀ ll, s.rxs = .idle →
      exec (.frameFalseSyn ll) s = .next { s with rx := [.byte 0x02#8, .byte (ll.setWidth 8)] ++ s.rx })

/-- Rule R270 for the receive stream: where the bytes at the front of the stream decode to an instruction, as many steps as it
has bytes run exactly that instruction. -/
def Obligations.StepsRunTheWireInstruction : Prop :=
  ∀ (s : State) (bytes more : List Byte) (i : Instr) (tail : List RxEvent),
    s.resetLine = [] → s.txs = .idle → s.rxs = .seekSyn → decodeWire bytes = .ok (i, more) →
    s.rx = bytes.map .byte ++ tail →
    core.run (bytes.length - more.length) s = exec i { s with rx := more.map .byte ++ tail }

/-- Rules R194, R195 and R196: the receive machine, step by step on any finite stream and terminal event, does what `Recv`
does: the same outcome, the same bank, the same unread bytes, after as many steps as answers were taken. -/
def Obligations.ReceiveMachineAgreesWithRecv : Prop :=
  ∀ (s : State) (input : List Byte) (e : RxEvent) (tail : List RxEvent),
    s.resetLine = [] → s.txs = .idle → s.rxs = .seekSyn → (e = .eof ∨ e = .ioerr) →
    s.rx = input.map .byte ++ e :: tail → s.rxbuf.wf 131 = true → (s.bank s.rxk).pay.wf 128 = true →
    ∃ (n : Nat) (t : State), core.run n s = .next t ∧ SameBanksBut s.rxk s t ∧ t.laddr = s.laddr ∧ t.tx = s.tx ∧
      t.cmds = s.cmds ∧
      match recv input with
      | (.noPacket, _) => n = input.length + 1 ∧ t.rx = tail ∧ SameBanks s t ∧
          ∃ c, Ends s t c .noPacket ∧ (c = codeIoerr ↔ e = .ioerr)
      | (.overflow, rest) => n + rest.length = input.length ∧ t.rx = rest.map .byte ++ e :: tail ∧ SameBanks s t ∧
          EndsFault s t .overflow (.limit 128)
      | (.ok dst src typ p, rest) => n + rest.length = input.length ∧ t.rx = rest.map .byte ++ e :: tail ∧
          EndsOk s t .ok ∧ (t.bank s.rxk).abs = ⟨src, dst, typ, some p⟩

/-- Rule R201: the round trip through the wire, also after noise that contains no `0x02`, and whatever follows the frame. -/
def Obligations.FrameIsReceivedAsSent : Prop :=
  ∀ (noise more : List Byte) (dst src typ : Byte) (p : List Byte), (∀ b ∈ noise, b ≠ 0x02#8) → p.length ≤ 128 →
    recv (noise ++ encodeFrame dst src typ p ++ more) = (.ok dst src typ p, more)

/-- Rule R201 on the machine: what a SEND from bank `j`, in any of its four forms, writes, a RECEIVE on bank `k` that reads those
bytes puts into bank `k`: the destination and type that the SEND left (its operands where given, rule R162), the same
payload, and `LADDR` as source. -/
def Obligations.SendThenReceiveCopiesThePacket : Prop :=
  ∀ c ∈ sendForms, ∀ (s : State) (j k : BankIx) (p : List Byte) (rest : List TxAnswer),
    s.Inv → s.resetLine = [] → (s.bank j).abs.payload = some p →
    (c.2.1 = true → 0 ≤ s.portA ∧ s.portA ≤ 255) → (c.2.2 = true → 0 ≤ s.portB ∧ s.portB ≤ 255) →
    s.txAns = .done :: rest →
    ∃ t f, exec (c.1 (bankField j)) s = .next t ∧ t.tx = s.tx ++ f ∧
      ∃ u n v, exec (.receive (bankField k)) { t with rx := f.map .byte ++ s.rx } = .next u ∧
        core.run n u = .next v ∧ EndsOk t v .ok ∧
        (v.bank k).abs = ⟨s.laddr, headerAfter c.2.1 s.portA (s.bank j).dst,
          headerAfter c.2.2 s.portB (s.bank j).typ, some p⟩ ∧ v.rx = s.rx

/-! ## The whole machine -/

/-- Rules R20, R87 and R220: without reset, a step either completes no command, and STATUS keeps its value, or completes one, and
STATUS is the code that the result port presents, one of the table's. The numbers are the spec's decision D21. -/
def Obligations.StatusIsTheLastCompletionCode : Prop :=
  (∀ s t : State, NoReset s → step s = .next t →
    (t.results = s.results ∧ t.status = s.status) ∨
    (∃ c, t.results = s.results ++ [c] ∧ t.status = c.code ∧ Between t ∧
      match c.ending with
      | .fault f _ => c.code = f.code
      | .noPacket => c.code ∈ [codeEofSeek, codeEofLen, codeEofBody, codeIoerr]
      | .ok | .okByte _ | .okInt _ | .okBytes _ => c.code = codeOk)) ∧
  [codeOk, FaultName.range.code, FaultName.overflow.code, FaultName.nodata.code, FaultName.format.code,
    FaultName.decode.code, FaultName.transport.code, FaultName.illegalCmd.code, codeEofSeek, codeEofLen, codeEofBody,
    codeIoerr] =
  [0x00#8, 0x01#8, 0x02#8, 0x03#8, 0x04#8, 0x05#8, 0x06#8, 0x07#8, 0x10#8, 0x11#8, 0x12#8, 0x13#8]

/-- Rule R232 (decisions D11 and D12): faults are precise. A command other than SEND that faults in the step that issues it
leaves the banks, `LADDR` and the streams exactly as they were; RECEIVE too, whose only fault in that step is ILLEGAL_CMD.
A later step in which a RECEIVE faults leaves the banks, `LADDR` and the transmit stream as they were and has consumed one
answer of the receive stream. -/
def Obligations.FaultsLeaveTheBanksAlone : Prop :=
  (∀ (s t : State) (i : Instr) (c : Completion),
    (∃ d ∈ plainBankCommands, ∃ k, i = d k) ∨ i = .setAddress ∨ i = .getAddress ∨ ReservedInstr i →
    exec i s = .next t → t.results = s.results ++ [c] → c.ending.isFault = true →
    (∀ k, t.bank k = s.bank k) ∧ t.laddr = s.laddr ∧ SameStreams s t) ∧
  (∀ (s t : State) (c : Completion), NoReset s → s.txs = .idle → s.rxs ≠ .idle →
    step s = .next t → t.results = s.results ++ [c] → c.ending.isFault = true →
    (∀ k, t.bank k = s.bank k) ∧ t.laddr = s.laddr ∧ t.tx = s.tx ∧ t.txAns = s.txAns ∧ ∃ e, s.rx = e :: t.rx)

/-- Rule R10: the banks are independent: a command on bank `j` neither reads nor writes the other bank. Whatever that bank
holds, the command does the same and leaves it: the step that issues it (first clause), each later step of a RECEIVE
(second clause, `RXK` the bank in use), and each later step of a SEND (third clause), which reads no bank at all, its
frame being complete in `TXBUF` (rule R22). -/
def Obligations.BanksAreIndependent : Prop :=
  (∀ c ∈ bankCommands, ∀ (s : State) (j k : BankIx) (p : Packet), k ≠ j →
    exec (c (bankField j)) (s.setBank k p) = onNext (fun t => t.setBank k p) (exec (c (bankField j)) s)) ∧
  (∀ (s : State) (k : BankIx) (p : Packet), NoReset s → s.txs = .idle → s.rxs ≠ .idle → k ≠ s.rxk →
    step (s.setBank k p) = onNext (fun t => t.setBank k p) (step s)) ∧
  (∀ (s : State) (k : BankIx) (p : Packet), NoReset s → s.txs = .emit →
    step (s.setBank k p) = onNext (fun t => t.setBank k p) (step s))

/-- Rules R10, R17, R21, R22, R25 and R27: what the spec leaves unspecified is never read. Two states that agree on all that a
rule can read stay so in every step, and give the same results: nothing depends on the contents of `PAY` at or above
`PLEN`, of an unset payload, or of an engine register that is not live (so on no reset value of the model's own,
notes/assumptions 4, 5 and 23). Both states meet the invariant, so that a byte written is the byte read back. -/
def Obligations.UnspecifiedBytesAreNeverRead : Prop :=
  ∀ s s' : State, s.Inv → s'.Inv → Alike s s' → AlikeOutcomes (step s) (step s')

/-- Rules R16, R21, R22, R23 and R220 as an invariant: every step keeps it. -/
def Obligations.StepKeepsTheInvariant : Prop :=
  ∀ s t : State, s.Inv → step s = .next t → t.Inv

/-- The invariant holds after reset, whatever commands, answers and samples the environment then places. -/
def Obligations.ResetMeetsTheInvariant : Prop :=
  ∀ (cmds : List Command) (rx : List RxEvent) (txAns : List TxAnswer) (line : List ResetSample),
    State.Inv { State.reset with cmds := cmds, rx := rx, txAns := txAns, resetLine := line }

/-- Rule R7 and R232: a state that meets the invariant never stops: every step has a next state, a command that faults
included. -/
def Obligations.TheMachineGoesOn : Prop := ∀ s : State, s.Inv → s.GoesOn
end

