-- ==== Sys2Proof/Laws/Decode.lean ====
section
/-!
SUPPORT. The fields of a command word, and the decoder on a word built from its fields.
-/

namespace Sys2Proof

theorem cmdWord_toNat (op k : BitVec 8) : (cmdWord op k).toNat = op.toNat * 256 + k.toNat := by
  have h : (cmdWord op k).toNat = op.toNat <<< 8 ||| k.toNat := BitVec.toNat_append op k
  rw [h, ← Nat.shiftLeft_add_eq_or_of_lt k.isLt, Nat.shiftLeft_eq]

theorem opField_toNat (w : CmdWord) : (opField w).toNat = w.toNat / 256 := by
  have := w.isLt
  simp only [opField, BitVec.extractLsb'_toNat, Nat.shiftRight_eq_div_pow]
  omega

theorem kField_toNat (w : CmdWord) : (kField w).toNat = w.toNat % 256 := by
  simp [kField]

/-- A command word is its two fields. -/
theorem cmdWord_fields (w : CmdWord) : cmdWord (opField w) (kField w) = w := by
  apply BitVec.eq_of_toNat_eq
  rw [cmdWord_toNat, opField_toNat, kField_toNat]
  omega

@[simp] theorem opField_cmdWord (op k : BitVec 8) : opField (cmdWord op k) = op := by
  apply BitVec.eq_of_toNat_eq
  have := k.isLt
  rw [opField_toNat, cmdWord_toNat]
  omega

@[simp] theorem kField_cmdWord (op k : BitVec 8) : kField (cmdWord op k) = k := by
  apply BitVec.eq_of_toNat_eq
  have := k.isLt
  rw [kField_toNat, cmdWord_toNat]
  omega

/-- The command decoder depends on the two fields alone. -/
@[simp] theorem decodeCommand_cmdWord (op k : BitVec 8) : decodeCommand (cmdWord op k) = decodeOp op k := by
  simp [decodeCommand]

end Sys2Proof
end

