-- ==== Sys2Proof/Laws/Memory.lean ====
section
/-!
SUPPORT. The laws of a byte space: read after write, the canonical form is kept, and reading and writing sequences.
-/

namespace Sys2Proof.Machine

@[simp] theorem Memory.read_nil (i : Nat) : Memory.read [] i = Memory.blank := rfl

@[simp] theorem Memory.readN_zero (m : Memory) (i : Nat) : m.readN i 0 = [] := rfl

theorem Memory.readN_succ (m : Memory) (i n : Nat) : m.readN i (n + 1) = m.read i :: m.readN (i + 1) n := rfl

@[simp] theorem Memory.writeN_nil (m : Memory) (i : Nat) : m.writeN i [] = m := rfl

theorem Memory.writeN_cons (m : Memory) (i : Nat) (b : Byte) (bs : List Byte) :
    m.writeN i (b :: bs) = (m.write i b).writeN (i + 1) bs := rfl

/-! ## The canonical form -/

theorem Memory.wfFrom_cons {lo : Nat} {c : Host.Cell} {m : Memory} :
    Memory.wfFrom lo (c :: m) = true ↔ lo ≤ c.1 ∧ c.2 ≠ Memory.blank ∧ Memory.wfFrom (c.1 + 1) m = true := by
  simp [Memory.wfFrom, and_assoc]

theorem Memory.wfFrom_mono {lo lo' : Nat} {m : Memory} (h : Memory.wfFrom lo m = true) (hl : lo' ≤ lo) :
    Memory.wfFrom lo' m = true := by
  cases m with
  | nil => rfl
  | cons c m =>
    obtain ⟨h1, h2, h3⟩ := Memory.wfFrom_cons.1 h
    exact Memory.wfFrom_cons.2 ⟨hl.trans h1, h2, h3⟩

/-- Below its first index a canonical byte space lists nothing. -/
theorem Memory.read_below {lo : Nat} {m : Memory} (h : Memory.wfFrom lo m = true) {i : Nat} (hi : i < lo) :
    m.read i = Memory.blank := by
  induction m generalizing lo with
  | nil => rfl
  | cons c m ih =>
    obtain ⟨h1, -, h3⟩ := Memory.wfFrom_cons.1 h
    rw [Memory.read, if_neg (by omega)]
    exact ih h3 (by omega)

theorem Memory.wfFrom_consCell {lo i : Nat} {b : Byte} {m : Memory} (hlo : lo ≤ i)
    (h : Memory.wfFrom (i + 1) m = true) : Memory.wfFrom lo (Memory.cons i b m) = true := by
  unfold Memory.cons
  split
  · exact Memory.wfFrom_mono h (by omega)
  · exact Memory.wfFrom_cons.2 ⟨hlo, ‹_›, h⟩

theorem Memory.wfFrom_write {lo : Nat} {m : Memory} (h : Memory.wfFrom lo m = true) {i : Nat} (b : Byte)
    (hi : lo ≤ i) : Memory.wfFrom lo (m.write i b) = true := by
  induction m generalizing lo with
  | nil => exact Memory.wfFrom_consCell hi rfl
  | cons c m ih =>
    obtain ⟨h1, h2, h3⟩ := Memory.wfFrom_cons.1 h
    unfold Memory.write
    split
    · exact Memory.wfFrom_consCell hi (Memory.wfFrom_cons.2 ⟨by omega, h2, h3⟩)
    · split
      · exact Memory.wfFrom_consCell hi (by subst_vars; exact h3)
      · exact Memory.wfFrom_cons.2 ⟨h1, h2, ih h3 (by omega)⟩

theorem Memory.bound_write {size : Nat} {m : Memory} {i : Nat} {b : Byte} (h : ∀ c ∈ m, c.1 < size) (hi : i < size) :
    ∀ c ∈ m.write i b, c.1 < size := by
  have hc : ∀ m' : Memory, (∀ c ∈ m', c.1 < size) → ∀ c ∈ Memory.cons i b m', c.1 < size := by
    intro m' h' c hc
    unfold Memory.cons at hc
    split at hc
    · exact h' c hc
    · rcases List.mem_cons.1 hc with rfl | hc
      · exact hi
      · exact h' c hc
  induction m with
  | nil => exact hc [] (by simp)
  | cons d m ih =>
    unfold Memory.write
    split
    · exact hc _ h
    · split
      · exact hc _ fun c hm => h c (List.mem_cons_of_mem _ hm)
      · intro c hm
        rcases List.mem_cons.1 hm with rfl | hm
        · exact h _ (List.mem_cons_self ..)
        · exact ih (fun c hm => h c (List.mem_cons_of_mem _ hm)) c hm

theorem Memory.wf_iff {size : Nat} {m : Memory} :
    m.wf size = true ↔ Memory.wfFrom 0 m = true ∧ ∀ c ∈ m, c.1 < size := by
  simp [Memory.wf]

@[simp] theorem Memory.wf_nil (size : Nat) : Memory.wf size [] = true := rfl

/-- A write inside a byte space keeps its canonical form. -/
theorem Memory.write_keeps_wf {size : Nat} {m : Memory} (h : m.wf size = true) {i : Nat} (b : Byte) (hi : i < size) :
    (m.write i b).wf size = true := by
  obtain ⟨h1, h2⟩ := Memory.wf_iff.1 h
  exact Memory.wf_iff.2 ⟨Memory.wfFrom_write h1 b (by omega), Memory.bound_write h2 hi⟩

/-- Writing a sequence inside a byte space keeps its canonical form. -/
theorem Memory.writeN_keeps_wf {size : Nat} (bs : List Byte) {m : Memory} (h : m.wf size = true) {i : Nat}
    (hi : i + bs.length ≤ size) : (m.writeN i bs).wf size = true := by
  induction bs generalizing m i with
  | nil => exact h
  | cons b bs ih =>
    rw [List.length_cons] at hi
    exact ih (Memory.write_keeps_wf h b (by omega)) (by omega)

/-! ## Read after write -/

theorem Memory.read_cons (c : Host.Cell) (m : Memory) (j : Nat) :
    Memory.read (c :: m) j = if c.1 = j then c.2 else m.read j := rfl

theorem Memory.read_consCell_self {i : Nat} {b : Byte} {m : Memory} (h : Memory.wfFrom (i + 1) m = true) :
    (Memory.cons i b m).read i = b := by
  unfold Memory.cons
  split
  · rw [Memory.read_below h (by omega)]; exact (‹b = _›).symm
  · simp [Memory.read_cons]

theorem Memory.read_consCell_ne {i j : Nat} {b : Byte} {m : Memory} (h : j ≠ i) :
    (Memory.cons i b m).read j = m.read j := by
  unfold Memory.cons
  split
  · rfl
  · rw [Memory.read_cons, if_neg (by simpa using h.symm)]

/-- A write leaves every other index alone, whatever the memory. -/
theorem Memory.read_write_ne (m : Memory) {i j : Nat} (b : Byte) (h : j ≠ i) : (m.write i b).read j = m.read j := by
  induction m with
  | nil => exact Memory.read_consCell_ne h
  | cons c m ih =>
    unfold Memory.write
    split
    · exact Memory.read_consCell_ne h
    · split
      · rw [Memory.read_consCell_ne h, Memory.read_cons, if_neg (by omega)]
      · rw [Memory.read_cons, Memory.read_cons, ih]

/-- A read of the index just written gives the byte written. -/
theorem Memory.read_write_self {lo : Nat} {m : Memory} (h : Memory.wfFrom lo m = true) (i : Nat) (b : Byte) :
    (m.write i b).read i = b := by
  induction m generalizing lo with
  | nil => exact Memory.read_consCell_self rfl
  | cons c m ih =>
    obtain ⟨h1, h2, h3⟩ := Memory.wfFrom_cons.1 h
    unfold Memory.write
    split
    · exact Memory.read_consCell_self (Memory.wfFrom_cons.2 ⟨by omega, h2, h3⟩)
    · split
      · exact Memory.read_consCell_self (by subst_vars; exact h3)
      · rw [Memory.read_cons, if_neg (by omega)]
        exact ih h3

theorem Memory.read_writeN_below (bs : List Byte) (m : Memory) {i j : Nat} (h : j < i) :
    (m.writeN i bs).read j = m.read j := by
  induction bs generalizing m i with
  | nil => rfl
  | cons b bs ih => rw [Memory.writeN_cons, ih _ (by omega), Memory.read_write_ne _ _ (by omega)]

/-- Writing a sequence leaves every index outside it alone. -/
theorem Memory.read_writeN_outside (bs : List Byte) (m : Memory) {i j : Nat} (h : j < i ∨ i + bs.length ≤ j) :
    (m.writeN i bs).read j = m.read j := by
  induction bs generalizing m i with
  | nil => rfl
  | cons b bs ih =>
    rw [List.length_cons] at h
    rw [Memory.writeN_cons, ih _ (by omega), Memory.read_write_ne _ _ (by omega)]

@[simp] theorem Memory.readN_length (m : Memory) (i n : Nat) : (m.readN i n).length = n := by
  induction n generalizing i with
  | zero => rfl
  | succ n ih => simp [Memory.readN_succ, ih]

/-- A sequence just written is read back. -/
theorem Memory.readN_writeN {m : Memory} {size : Nat} (h : m.wf size = true) (bs : List Byte) {i : Nat}
    (hi : i + bs.length ≤ size) : (m.writeN i bs).readN i bs.length = bs := by
  induction bs generalizing m i with
  | nil => rfl
  | cons b bs ih =>
    rw [List.length_cons] at hi
    have hw := Memory.write_keeps_wf h b (show i < size by omega)
    rw [List.length_cons, Memory.readN_succ, Memory.writeN_cons, ih hw (by omega),
      Memory.read_writeN_below _ _ (by omega), Memory.read_write_self (Memory.wf_iff.1 h).1]

theorem Memory.readN_congr {m m' : Memory} (n : Nat) {i : Nat} (h : ∀ j, i ≤ j → j < i + n → m'.read j = m.read j) :
    m'.readN i n = m.readN i n := by
  induction n generalizing i with
  | zero => rfl
  | succ n ih =>
    rw [Memory.readN_succ, Memory.readN_succ, h i (by omega) (by omega), ih fun j h1 h2 => h j (by omega) (by omega)]

/-- Reading `n + 1` bytes reads `n` and then the last one. -/
theorem Memory.readN_snoc (m : Memory) (i n : Nat) : m.readN i (n + 1) = m.readN i n ++ [m.read (i + n)] := by
  induction n generalizing i with
  | zero => rfl
  | succ n ih =>
    rw [Memory.readN_succ, ih, Memory.readN_succ, List.cons_append, Nat.add_right_comm i 1 n, Nat.add_assoc]

theorem Memory.readN_getElem (m : Memory) (i n : Nat) {j : Nat} (h : j < (m.readN i n).length) :
    (m.readN i n)[j] = m.read (i + j) := by
  induction n generalizing i j with
  | zero => simp at h
  | succ n ih =>
    cases j with
    | zero => rfl
    | succ j =>
      rw [Memory.readN_length] at h
      simp only [Memory.readN_succ, List.getElem_cons_succ]
      rw [ih (i + 1) (by simp; omega)]
      congr 1
      omega

theorem Memory.readN_take (m : Memory) (i : Nat) {k n : Nat} (h : k ≤ n) : (m.readN i n).take k = m.readN i k := by
  apply List.ext_getElem
  · simp [h]
  · intro j h1 h2
    rw [List.getElem_take, Memory.readN_getElem, Memory.readN_getElem]

/-! ## Bounded reads -/

theorem Memory.readFirst_some {size n : Nat} {m : Memory} (h : n ≤ size) : m.readFirst size n = some (m.readN 0 n) :=
  if_pos h

theorem Memory.readFirst_none {size n : Nat} {m : Memory} (h : size < n) : m.readFirst size n = none :=
  if_neg (by omega)

/-- Two canonical byte spaces that read the same are the same data. -/
theorem Memory.eq_of_wfFrom {m m' : Memory} {lo lo' : Nat} (h : Memory.wfFrom lo m = true)
    (h' : Memory.wfFrom lo' m' = true) (hr : ∀ i, m.read i = m'.read i) : m = m' := by
  induction m generalizing lo lo' m' with
  | nil =>
    cases m' with
    | nil => rfl
    | cons c m' =>
      obtain ⟨-, h2, -⟩ := Memory.wfFrom_cons.1 h'
      exact absurd (by simpa [Memory.read_cons] using (hr c.1).symm) h2
  | cons c m ih =>
    obtain ⟨-, h2, h3⟩ := Memory.wfFrom_cons.1 h
    cases m' with
    | nil => exact absurd (by simpa [Memory.read_cons] using hr c.1) h2
    | cons c' m' =>
      obtain ⟨-, h2', h3'⟩ := Memory.wfFrom_cons.1 h'
      have hc : c.1 = c'.1 := by
        rcases Nat.lt_trichotomy c.1 c'.1 with hl | he | hl
        · refine absurd ?_ h2
          have := hr c.1
          rw [Memory.read_cons, if_pos rfl, Memory.read_cons, if_neg (by omega),
            Memory.read_below h3' (by omega)] at this
          exact this
        · exact he
        · refine absurd ?_ h2'
          have := hr c'.1
          rw [Memory.read_cons, if_neg (by omega), Memory.read_below h3 (by omega), Memory.read_cons,
            if_pos rfl] at this
          exact this.symm
      have hb : c.2 = c'.2 := by
        have := hr c.1
        rwa [Memory.read_cons, if_pos rfl, Memory.read_cons, if_pos hc.symm] at this
      have hm : m = m' := by
        refine ih h3 h3' fun i => ?_
        by_cases hi : i < c.1 + 1
        · rw [Memory.read_below h3 hi, Memory.read_below h3' (by omega)]
        · have := hr i
          rwa [Memory.read_cons, if_neg (by omega), Memory.read_cons, if_neg (by omega)] at this
      rw [hm, Prod.ext hc hb]

end Sys2Proof.Machine
end

