-- ==== Sys2Proof/Laws/State.lean ====
section
/-!
SUPPORT. What each update of the state leaves in each field, so that no later proof unfolds a record update.
-/

namespace Sys2Proof.Machine

/-! ## Completing a command -/

@[simp] theorem State.complete_pk0 (s : State) (c : Byte) (e : Ending) : (s.complete c e).pk0 = s.pk0 := rfl
@[simp] theorem State.complete_pk1 (s : State) (c : Byte) (e : Ending) : (s.complete c e).pk1 = s.pk1 := rfl
@[simp] theorem State.complete_laddr (s : State) (c : Byte) (e : Ending) : (s.complete c e).laddr = s.laddr := rfl
@[simp] theorem State.complete_status (s : State) (c : Byte) (e : Ending) : (s.complete c e).status = c := rfl
@[simp] theorem State.complete_rxs (s : State) (c : Byte) (e : Ending) : (s.complete c e).rxs = .idle := rfl
@[simp] theorem State.complete_rxlen (s : State) (c : Byte) (e : Ending) : (s.complete c e).rxlen = s.rxlen := rfl
@[simp] theorem State.complete_rxcnt (s : State) (c : Byte) (e : Ending) : (s.complete c e).rxcnt = s.rxcnt := rfl
@[simp] theorem State.complete_rxsum (s : State) (c : Byte) (e : Ending) : (s.complete c e).rxsum = s.rxsum := rfl
@[simp] theorem State.complete_rxbuf (s : State) (c : Byte) (e : Ending) : (s.complete c e).rxbuf = s.rxbuf := rfl
@[simp] theorem State.complete_rxk (s : State) (c : Byte) (e : Ending) : (s.complete c e).rxk = s.rxk := rfl
@[simp] theorem State.complete_txs (s : State) (c : Byte) (e : Ending) : (s.complete c e).txs = .idle := rfl
@[simp] theorem State.complete_txbuf (s : State) (c : Byte) (e : Ending) : (s.complete c e).txbuf = s.txbuf := rfl
@[simp] theorem State.complete_txn (s : State) (c : Byte) (e : Ending) : (s.complete c e).txn = s.txn := rfl
@[simp] theorem State.complete_txpos (s : State) (c : Byte) (e : Ending) : (s.complete c e).txpos = s.txpos := rfl
@[simp] theorem State.complete_portA (s : State) (c : Byte) (e : Ending) : (s.complete c e).portA = s.portA := rfl
@[simp] theorem State.complete_portB (s : State) (c : Byte) (e : Ending) : (s.complete c e).portB = s.portB := rfl
@[simp] theorem State.complete_portData (s : State) (c : Byte) (e : Ending) : (s.complete c e).portData = s.portData := rfl
@[simp] theorem State.complete_cmds (s : State) (c : Byte) (e : Ending) : (s.complete c e).cmds = s.cmds := rfl
@[simp] theorem State.complete_results (s : State) (c : Byte) (e : Ending) : (s.complete c e).results = s.results ++ [⟨c, e⟩] := rfl
@[simp] theorem State.complete_rx (s : State) (c : Byte) (e : Ending) : (s.complete c e).rx = s.rx := rfl
@[simp] theorem State.complete_tx (s : State) (c : Byte) (e : Ending) : (s.complete c e).tx = s.tx := rfl
@[simp] theorem State.complete_txAns (s : State) (c : Byte) (e : Ending) : (s.complete c e).txAns = s.txAns := rfl
@[simp] theorem State.complete_resetLine (s : State) (c : Byte) (e : Ending) : (s.complete c e).resetLine = s.resetLine := rfl

/-! ## Ending with Ok -/

@[simp] theorem State.finish_pk0 (s : State) (e : Ending) : (s.finish e).pk0 = s.pk0 := rfl
@[simp] theorem State.finish_pk1 (s : State) (e : Ending) : (s.finish e).pk1 = s.pk1 := rfl
@[simp] theorem State.finish_laddr (s : State) (e : Ending) : (s.finish e).laddr = s.laddr := rfl
@[simp] theorem State.finish_status (s : State) (e : Ending) : (s.finish e).status = codeOk := rfl
@[simp] theorem State.finish_rxs (s : State) (e : Ending) : (s.finish e).rxs = .idle := rfl
@[simp] theorem State.finish_rxlen (s : State) (e : Ending) : (s.finish e).rxlen = s.rxlen := rfl
@[simp] theorem State.finish_rxcnt (s : State) (e : Ending) : (s.finish e).rxcnt = s.rxcnt := rfl
@[simp] theorem State.finish_rxsum (s : State) (e : Ending) : (s.finish e).rxsum = s.rxsum := rfl
@[simp] theorem State.finish_rxbuf (s : State) (e : Ending) : (s.finish e).rxbuf = s.rxbuf := rfl
@[simp] theorem State.finish_rxk (s : State) (e : Ending) : (s.finish e).rxk = s.rxk := rfl
@[simp] theorem State.finish_txs (s : State) (e : Ending) : (s.finish e).txs = .idle := rfl
@[simp] theorem State.finish_txbuf (s : State) (e : Ending) : (s.finish e).txbuf = s.txbuf := rfl
@[simp] theorem State.finish_txn (s : State) (e : Ending) : (s.finish e).txn = s.txn := rfl
@[simp] theorem State.finish_txpos (s : State) (e : Ending) : (s.finish e).txpos = s.txpos := rfl
@[simp] theorem State.finish_portA (s : State) (e : Ending) : (s.finish e).portA = s.portA := rfl
@[simp] theorem State.finish_portB (s : State) (e : Ending) : (s.finish e).portB = s.portB := rfl
@[simp] theorem State.finish_portData (s : State) (e : Ending) : (s.finish e).portData = s.portData := rfl
@[simp] theorem State.finish_cmds (s : State) (e : Ending) : (s.finish e).cmds = s.cmds := rfl
@[simp] theorem State.finish_results (s : State) (e : Ending) : (s.finish e).results = s.results ++ [⟨codeOk, e⟩] := rfl
@[simp] theorem State.finish_rx (s : State) (e : Ending) : (s.finish e).rx = s.rx := rfl
@[simp] theorem State.finish_tx (s : State) (e : Ending) : (s.finish e).tx = s.tx := rfl
@[simp] theorem State.finish_txAns (s : State) (e : Ending) : (s.finish e).txAns = s.txAns := rfl
@[simp] theorem State.finish_resetLine (s : State) (e : Ending) : (s.finish e).resetLine = s.resetLine := rfl

/-! ## Raising a fault -/

@[simp] theorem State.raise_pk0 (s : State) (f : FaultName) (i : FaultInfo) : (s.raise f i).pk0 = s.pk0 := rfl
@[simp] theorem State.raise_pk1 (s : State) (f : FaultName) (i : FaultInfo) : (s.raise f i).pk1 = s.pk1 := rfl
@[simp] theorem State.raise_laddr (s : State) (f : FaultName) (i : FaultInfo) : (s.raise f i).laddr = s.laddr := rfl
@[simp] theorem State.raise_status (s : State) (f : FaultName) (i : FaultInfo) : (s.raise f i).status = f.code := rfl
@[simp] theorem State.raise_rxs (s : State) (f : FaultName) (i : FaultInfo) : (s.raise f i).rxs = .idle := rfl
@[simp] theorem State.raise_rxlen (s : State) (f : FaultName) (i : FaultInfo) : (s.raise f i).rxlen = s.rxlen := rfl
@[simp] theorem State.raise_rxcnt (s : State) (f : FaultName) (i : FaultInfo) : (s.raise f i).rxcnt = s.rxcnt := rfl
@[simp] theorem State.raise_rxsum (s : State) (f : FaultName) (i : FaultInfo) : (s.raise f i).rxsum = s.rxsum := rfl
@[simp] theorem State.raise_rxbuf (s : State) (f : FaultName) (i : FaultInfo) : (s.raise f i).rxbuf = s.rxbuf := rfl
@[simp] theorem State.raise_rxk (s : State) (f : FaultName) (i : FaultInfo) : (s.raise f i).rxk = s.rxk := rfl
@[simp] theorem State.raise_txs (s : State) (f : FaultName) (i : FaultInfo) : (s.raise f i).txs = .idle := rfl
@[simp] theorem State.raise_txbuf (s : State) (f : FaultName) (i : FaultInfo) : (s.raise f i).txbuf = s.txbuf := rfl
@[simp] theorem State.raise_txn (s : State) (f : FaultName) (i : FaultInfo) : (s.raise f i).txn = s.txn := rfl
@[simp] theorem State.raise_txpos (s : State) (f : FaultName) (i : FaultInfo) : (s.raise f i).txpos = s.txpos := rfl
@[simp] theorem State.raise_portA (s : State) (f : FaultName) (i : FaultInfo) : (s.raise f i).portA = s.portA := rfl
@[simp] theorem State.raise_portB (s : State) (f : FaultName) (i : FaultInfo) : (s.raise f i).portB = s.portB := rfl
@[simp] theorem State.raise_portData (s : State) (f : FaultName) (i : FaultInfo) : (s.raise f i).portData = s.portData := rfl
@[simp] theorem State.raise_cmds (s : State) (f : FaultName) (i : FaultInfo) : (s.raise f i).cmds = s.cmds := rfl
@[simp] theorem State.raise_results (s : State) (f : FaultName) (i : FaultInfo) : (s.raise f i).results = s.results ++ [⟨f.code, .fault f i⟩] := rfl
@[simp] theorem State.raise_rx (s : State) (f : FaultName) (i : FaultInfo) : (s.raise f i).rx = s.rx := rfl
@[simp] theorem State.raise_tx (s : State) (f : FaultName) (i : FaultInfo) : (s.raise f i).tx = s.tx := rfl
@[simp] theorem State.raise_txAns (s : State) (f : FaultName) (i : FaultInfo) : (s.raise f i).txAns = s.txAns := rfl
@[simp] theorem State.raise_resetLine (s : State) (f : FaultName) (i : FaultInfo) : (s.raise f i).resetLine = s.resetLine := rfl

/-! ## Ending with NoPacket -/

@[simp] theorem State.noPacket_pk0 (s : State) (c : Byte) : (s.noPacket c).pk0 = s.pk0 := rfl
@[simp] theorem State.noPacket_pk1 (s : State) (c : Byte) : (s.noPacket c).pk1 = s.pk1 := rfl
@[simp] theorem State.noPacket_laddr (s : State) (c : Byte) : (s.noPacket c).laddr = s.laddr := rfl
@[simp] theorem State.noPacket_status (s : State) (c : Byte) : (s.noPacket c).status = c := rfl
@[simp] theorem State.noPacket_rxs (s : State) (c : Byte) : (s.noPacket c).rxs = .idle := rfl
@[simp] theorem State.noPacket_rxlen (s : State) (c : Byte) : (s.noPacket c).rxlen = s.rxlen := rfl
@[simp] theorem State.noPacket_rxcnt (s : State) (c : Byte) : (s.noPacket c).rxcnt = s.rxcnt := rfl
@[simp] theorem State.noPacket_rxsum (s : State) (c : Byte) : (s.noPacket c).rxsum = s.rxsum := rfl
@[simp] theorem State.noPacket_rxbuf (s : State) (c : Byte) : (s.noPacket c).rxbuf = s.rxbuf := rfl
@[simp] theorem State.noPacket_rxk (s : State) (c : Byte) : (s.noPacket c).rxk = s.rxk := rfl
@[simp] theorem State.noPacket_txs (s : State) (c : Byte) : (s.noPacket c).txs = .idle := rfl
@[simp] theorem State.noPacket_txbuf (s : State) (c : Byte) : (s.noPacket c).txbuf = s.txbuf := rfl
@[simp] theorem State.noPacket_txn (s : State) (c : Byte) : (s.noPacket c).txn = s.txn := rfl
@[simp] theorem State.noPacket_txpos (s : State) (c : Byte) : (s.noPacket c).txpos = s.txpos := rfl
@[simp] theorem State.noPacket_portA (s : State) (c : Byte) : (s.noPacket c).portA = s.portA := rfl
@[simp] theorem State.noPacket_portB (s : State) (c : Byte) : (s.noPacket c).portB = s.portB := rfl
@[simp] theorem State.noPacket_portData (s : State) (c : Byte) : (s.noPacket c).portData = s.portData := rfl
@[simp] theorem State.noPacket_cmds (s : State) (c : Byte) : (s.noPacket c).cmds = s.cmds := rfl
@[simp] theorem State.noPacket_results (s : State) (c : Byte) : (s.noPacket c).results = s.results ++ [⟨c, .noPacket⟩] := rfl
@[simp] theorem State.noPacket_rx (s : State) (c : Byte) : (s.noPacket c).rx = s.rx := rfl
@[simp] theorem State.noPacket_tx (s : State) (c : Byte) : (s.noPacket c).tx = s.tx := rfl
@[simp] theorem State.noPacket_txAns (s : State) (c : Byte) : (s.noPacket c).txAns = s.txAns := rfl
@[simp] theorem State.noPacket_resetLine (s : State) (c : Byte) : (s.noPacket c).resetLine = s.resetLine := rfl

/-! ## Issuing a command -/

@[simp] theorem State.issued_pk0 (s : State) (c : Command) (r : List Command) : (s.issued c r).pk0 = s.pk0 := rfl
@[simp] theorem State.issued_pk1 (s : State) (c : Command) (r : List Command) : (s.issued c r).pk1 = s.pk1 := rfl
@[simp] theorem State.issued_laddr (s : State) (c : Command) (r : List Command) : (s.issued c r).laddr = s.laddr := rfl
@[simp] theorem State.issued_status (s : State) (c : Command) (r : List Command) : (s.issued c r).status = s.status := rfl
@[simp] theorem State.issued_rxs (s : State) (c : Command) (r : List Command) : (s.issued c r).rxs = s.rxs := rfl
@[simp] theorem State.issued_rxlen (s : State) (c : Command) (r : List Command) : (s.issued c r).rxlen = s.rxlen := rfl
@[simp] theorem State.issued_rxcnt (s : State) (c : Command) (r : List Command) : (s.issued c r).rxcnt = s.rxcnt := rfl
@[simp] theorem State.issued_rxsum (s : State) (c : Command) (r : List Command) : (s.issued c r).rxsum = s.rxsum := rfl
@[simp] theorem State.issued_rxbuf (s : State) (c : Command) (r : List Command) : (s.issued c r).rxbuf = s.rxbuf := rfl
@[simp] theorem State.issued_rxk (s : State) (c : Command) (r : List Command) : (s.issued c r).rxk = s.rxk := rfl
@[simp] theorem State.issued_txs (s : State) (c : Command) (r : List Command) : (s.issued c r).txs = s.txs := rfl
@[simp] theorem State.issued_txbuf (s : State) (c : Command) (r : List Command) : (s.issued c r).txbuf = s.txbuf := rfl
@[simp] theorem State.issued_txn (s : State) (c : Command) (r : List Command) : (s.issued c r).txn = s.txn := rfl
@[simp] theorem State.issued_txpos (s : State) (c : Command) (r : List Command) : (s.issued c r).txpos = s.txpos := rfl
@[simp] theorem State.issued_portA (s : State) (c : Command) (r : List Command) : (s.issued c r).portA = c.a := rfl
@[simp] theorem State.issued_portB (s : State) (c : Command) (r : List Command) : (s.issued c r).portB = c.b := rfl
@[simp] theorem State.issued_portData (s : State) (c : Command) (r : List Command) : (s.issued c r).portData = c.data := rfl
@[simp] theorem State.issued_cmds (s : State) (c : Command) (r : List Command) : (s.issued c r).cmds = r := rfl
@[simp] theorem State.issued_results (s : State) (c : Command) (r : List Command) : (s.issued c r).results = s.results := rfl
@[simp] theorem State.issued_rx (s : State) (c : Command) (r : List Command) : (s.issued c r).rx = s.rx := rfl
@[simp] theorem State.issued_tx (s : State) (c : Command) (r : List Command) : (s.issued c r).tx = s.tx := rfl
@[simp] theorem State.issued_txAns (s : State) (c : Command) (r : List Command) : (s.issued c r).txAns = s.txAns := rfl
@[simp] theorem State.issued_resetLine (s : State) (c : Command) (r : List Command) : (s.issued c r).resetLine = s.resetLine := rfl

/-! ## One reset sample -/

@[simp] theorem State.tick_pk0 (s : State) : (s.tick).pk0 = s.pk0 := rfl
@[simp] theorem State.tick_pk1 (s : State) : (s.tick).pk1 = s.pk1 := rfl
@[simp] theorem State.tick_laddr (s : State) : (s.tick).laddr = s.laddr := rfl
@[simp] theorem State.tick_status (s : State) : (s.tick).status = s.status := rfl
@[simp] theorem State.tick_rxs (s : State) : (s.tick).rxs = s.rxs := rfl
@[simp] theorem State.tick_rxlen (s : State) : (s.tick).rxlen = s.rxlen := rfl
@[simp] theorem State.tick_rxcnt (s : State) : (s.tick).rxcnt = s.rxcnt := rfl
@[simp] theorem State.tick_rxsum (s : State) : (s.tick).rxsum = s.rxsum := rfl
@[simp] theorem State.tick_rxbuf (s : State) : (s.tick).rxbuf = s.rxbuf := rfl
@[simp] theorem State.tick_rxk (s : State) : (s.tick).rxk = s.rxk := rfl
@[simp] theorem State.tick_txs (s : State) : (s.tick).txs = s.txs := rfl
@[simp] theorem State.tick_txbuf (s : State) : (s.tick).txbuf = s.txbuf := rfl
@[simp] theorem State.tick_txn (s : State) : (s.tick).txn = s.txn := rfl
@[simp] theorem State.tick_txpos (s : State) : (s.tick).txpos = s.txpos := rfl
@[simp] theorem State.tick_portA (s : State) : (s.tick).portA = s.portA := rfl
@[simp] theorem State.tick_portB (s : State) : (s.tick).portB = s.portB := rfl
@[simp] theorem State.tick_portData (s : State) : (s.tick).portData = s.portData := rfl
@[simp] theorem State.tick_cmds (s : State) : (s.tick).cmds = s.cmds := rfl
@[simp] theorem State.tick_results (s : State) : (s.tick).results = s.results := rfl
@[simp] theorem State.tick_rx (s : State) : (s.tick).rx = s.rx := rfl
@[simp] theorem State.tick_tx (s : State) : (s.tick).tx = s.tx := rfl
@[simp] theorem State.tick_txAns (s : State) : (s.tick).txAns = s.txAns := rfl
@[simp] theorem State.tick_resetLine (s : State) : (s.tick).resetLine = s.resetLine.tail := rfl

/-! ## Loading a frame -/

@[simp] theorem State.loadFrame_pk0 (s : State) (f : List Byte) : (s.loadFrame f).pk0 = s.pk0 := rfl
@[simp] theorem State.loadFrame_pk1 (s : State) (f : List Byte) : (s.loadFrame f).pk1 = s.pk1 := rfl
@[simp] theorem State.loadFrame_laddr (s : State) (f : List Byte) : (s.loadFrame f).laddr = s.laddr := rfl
@[simp] theorem State.loadFrame_status (s : State) (f : List Byte) : (s.loadFrame f).status = s.status := rfl
@[simp] theorem State.loadFrame_rxs (s : State) (f : List Byte) : (s.loadFrame f).rxs = s.rxs := rfl
@[simp] theorem State.loadFrame_rxlen (s : State) (f : List Byte) : (s.loadFrame f).rxlen = s.rxlen := rfl
@[simp] theorem State.loadFrame_rxcnt (s : State) (f : List Byte) : (s.loadFrame f).rxcnt = s.rxcnt := rfl
@[simp] theorem State.loadFrame_rxsum (s : State) (f : List Byte) : (s.loadFrame f).rxsum = s.rxsum := rfl
@[simp] theorem State.loadFrame_rxbuf (s : State) (f : List Byte) : (s.loadFrame f).rxbuf = s.rxbuf := rfl
@[simp] theorem State.loadFrame_rxk (s : State) (f : List Byte) : (s.loadFrame f).rxk = s.rxk := rfl
@[simp] theorem State.loadFrame_txs (s : State) (f : List Byte) : (s.loadFrame f).txs = .emit := rfl
@[simp] theorem State.loadFrame_txbuf (s : State) (f : List Byte) : (s.loadFrame f).txbuf = s.txbuf.writeN 0 f := rfl
@[simp] theorem State.loadFrame_txn (s : State) (f : List Byte) : (s.loadFrame f).txn = BitVec.ofNat 8 f.length := rfl
@[simp] theorem State.loadFrame_txpos (s : State) (f : List Byte) : (s.loadFrame f).txpos = 0x00#8 := rfl
@[simp] theorem State.loadFrame_portA (s : State) (f : List Byte) : (s.loadFrame f).portA = s.portA := rfl
@[simp] theorem State.loadFrame_portB (s : State) (f : List Byte) : (s.loadFrame f).portB = s.portB := rfl
@[simp] theorem State.loadFrame_portData (s : State) (f : List Byte) : (s.loadFrame f).portData = s.portData := rfl
@[simp] theorem State.loadFrame_cmds (s : State) (f : List Byte) : (s.loadFrame f).cmds = s.cmds := rfl
@[simp] theorem State.loadFrame_results (s : State) (f : List Byte) : (s.loadFrame f).results = s.results := rfl
@[simp] theorem State.loadFrame_rx (s : State) (f : List Byte) : (s.loadFrame f).rx = s.rx := rfl
@[simp] theorem State.loadFrame_tx (s : State) (f : List Byte) : (s.loadFrame f).tx = s.tx := rfl
@[simp] theorem State.loadFrame_txAns (s : State) (f : List Byte) : (s.loadFrame f).txAns = s.txAns := rfl
@[simp] theorem State.loadFrame_resetLine (s : State) (f : List Byte) : (s.loadFrame f).resetLine = s.resetLine := rfl

/-! ## Starting RECEIVE -/

@[simp] theorem State.startReceive_pk0 (s : State) (j : BankIx) : (s.startReceive j).pk0 = s.pk0 := rfl
@[simp] theorem State.startReceive_pk1 (s : State) (j : BankIx) : (s.startReceive j).pk1 = s.pk1 := rfl
@[simp] theorem State.startReceive_laddr (s : State) (j : BankIx) : (s.startReceive j).laddr = s.laddr := rfl
@[simp] theorem State.startReceive_status (s : State) (j : BankIx) : (s.startReceive j).status = s.status := rfl
@[simp] theorem State.startReceive_rxs (s : State) (j : BankIx) : (s.startReceive j).rxs = .seekSyn := rfl
@[simp] theorem State.startReceive_rxlen (s : State) (j : BankIx) : (s.startReceive j).rxlen = s.rxlen := rfl
@[simp] theorem State.startReceive_rxcnt (s : State) (j : BankIx) : (s.startReceive j).rxcnt = s.rxcnt := rfl
@[simp] theorem State.startReceive_rxsum (s : State) (j : BankIx) : (s.startReceive j).rxsum = s.rxsum := rfl
@[simp] theorem State.startReceive_rxbuf (s : State) (j : BankIx) : (s.startReceive j).rxbuf = s.rxbuf := rfl
@[simp] theorem State.startReceive_rxk (s : State) (j : BankIx) : (s.startReceive j).rxk = j := rfl
@[simp] theorem State.startReceive_txs (s : State) (j : BankIx) : (s.startReceive j).txs = s.txs := rfl
@[simp] theorem State.startReceive_txbuf (s : State) (j : BankIx) : (s.startReceive j).txbuf = s.txbuf := rfl
@[simp] theorem State.startReceive_txn (s : State) (j : BankIx) : (s.startReceive j).txn = s.txn := rfl
@[simp] theorem State.startReceive_txpos (s : State) (j : BankIx) : (s.startReceive j).txpos = s.txpos := rfl
@[simp] theorem State.startReceive_portA (s : State) (j : BankIx) : (s.startReceive j).portA = s.portA := rfl
@[simp] theorem State.startReceive_portB (s : State) (j : BankIx) : (s.startReceive j).portB = s.portB := rfl
@[simp] theorem State.startReceive_portData (s : State) (j : BankIx) : (s.startReceive j).portData = s.portData := rfl
@[simp] theorem State.startReceive_cmds (s : State) (j : BankIx) : (s.startReceive j).cmds = s.cmds := rfl
@[simp] theorem State.startReceive_results (s : State) (j : BankIx) : (s.startReceive j).results = s.results := rfl
@[simp] theorem State.startReceive_rx (s : State) (j : BankIx) : (s.startReceive j).rx = s.rx := rfl
@[simp] theorem State.startReceive_tx (s : State) (j : BankIx) : (s.startReceive j).tx = s.tx := rfl
@[simp] theorem State.startReceive_txAns (s : State) (j : BankIx) : (s.startReceive j).txAns = s.txAns := rfl
@[simp] theorem State.startReceive_resetLine (s : State) (j : BankIx) : (s.startReceive j).resetLine = s.resetLine := rfl

/-! ## Reset -/

@[simp] theorem State.resetEvent_pk0 (s : State) : s.resetEvent.pk0 = Packet.empty := rfl
@[simp] theorem State.resetEvent_pk1 (s : State) : s.resetEvent.pk1 = Packet.empty := rfl
@[simp] theorem State.resetEvent_laddr (s : State) : s.resetEvent.laddr = Config.LADDR_RESET := rfl
@[simp] theorem State.resetEvent_status (s : State) : s.resetEvent.status = 0x00#8 := rfl
@[simp] theorem State.resetEvent_rxs (s : State) : s.resetEvent.rxs = .idle := rfl
@[simp] theorem State.resetEvent_rxlen (s : State) : s.resetEvent.rxlen = 0x00#8 := rfl
@[simp] theorem State.resetEvent_rxcnt (s : State) : s.resetEvent.rxcnt = 0x00#8 := rfl
@[simp] theorem State.resetEvent_rxsum (s : State) : s.resetEvent.rxsum = 0x00#8 := rfl
@[simp] theorem State.resetEvent_rxbuf (s : State) : s.resetEvent.rxbuf = [] := rfl
@[simp] theorem State.resetEvent_rxk (s : State) : s.resetEvent.rxk = 0 := rfl
@[simp] theorem State.resetEvent_txs (s : State) : s.resetEvent.txs = .idle := rfl
@[simp] theorem State.resetEvent_txbuf (s : State) : s.resetEvent.txbuf = [] := rfl
@[simp] theorem State.resetEvent_txn (s : State) : s.resetEvent.txn = 0x00#8 := rfl
@[simp] theorem State.resetEvent_txpos (s : State) : s.resetEvent.txpos = 0x00#8 := rfl
@[simp] theorem State.resetEvent_portA (s : State) : s.resetEvent.portA = s.portA := rfl
@[simp] theorem State.resetEvent_portB (s : State) : s.resetEvent.portB = s.portB := rfl
@[simp] theorem State.resetEvent_portData (s : State) : s.resetEvent.portData = s.portData := rfl
@[simp] theorem State.resetEvent_cmds (s : State) : s.resetEvent.cmds = s.cmds := rfl
@[simp] theorem State.resetEvent_results (s : State) : s.resetEvent.results = s.results := rfl
@[simp] theorem State.resetEvent_rx (s : State) : s.resetEvent.rx = s.rx := rfl
@[simp] theorem State.resetEvent_txAns (s : State) : s.resetEvent.txAns = s.txAns := rfl
@[simp] theorem State.resetEvent_resetLine (s : State) : s.resetEvent.resetLine = s.resetLine := rfl
@[simp] theorem State.resetEvent_tx (s : State) : s.resetEvent.tx = s.tx := rfl

/-! ## Banks -/

@[simp] theorem State.setBank_laddr (s : State) (j : BankIx) (p : Packet) : (s.setBank j p).laddr = s.laddr := by
  unfold State.setBank; split <;> rfl
@[simp] theorem State.setBank_status (s : State) (j : BankIx) (p : Packet) : (s.setBank j p).status = s.status := by
  unfold State.setBank; split <;> rfl
@[simp] theorem State.setBank_rxs (s : State) (j : BankIx) (p : Packet) : (s.setBank j p).rxs = s.rxs := by
  unfold State.setBank; split <;> rfl
@[simp] theorem State.setBank_rxlen (s : State) (j : BankIx) (p : Packet) : (s.setBank j p).rxlen = s.rxlen := by
  unfold State.setBank; split <;> rfl
@[simp] theorem State.setBank_rxcnt (s : State) (j : BankIx) (p : Packet) : (s.setBank j p).rxcnt = s.rxcnt := by
  unfold State.setBank; split <;> rfl
@[simp] theorem State.setBank_rxsum (s : State) (j : BankIx) (p : Packet) : (s.setBank j p).rxsum = s.rxsum := by
  unfold State.setBank; split <;> rfl
@[simp] theorem State.setBank_rxbuf (s : State) (j : BankIx) (p : Packet) : (s.setBank j p).rxbuf = s.rxbuf := by
  unfold State.setBank; split <;> rfl
@[simp] theorem State.setBank_rxk (s : State) (j : BankIx) (p : Packet) : (s.setBank j p).rxk = s.rxk := by
  unfold State.setBank; split <;> rfl
@[simp] theorem State.setBank_txs (s : State) (j : BankIx) (p : Packet) : (s.setBank j p).txs = s.txs := by
  unfold State.setBank; split <;> rfl
@[simp] theorem State.setBank_txbuf (s : State) (j : BankIx) (p : Packet) : (s.setBank j p).txbuf = s.txbuf := by
  unfold State.setBank; split <;> rfl
@[simp] theorem State.setBank_txn (s : State) (j : BankIx) (p : Packet) : (s.setBank j p).txn = s.txn := by
  unfold State.setBank; split <;> rfl
@[simp] theorem State.setBank_txpos (s : State) (j : BankIx) (p : Packet) : (s.setBank j p).txpos = s.txpos := by
  unfold State.setBank; split <;> rfl
@[simp] theorem State.setBank_portA (s : State) (j : BankIx) (p : Packet) : (s.setBank j p).portA = s.portA := by
  unfold State.setBank; split <;> rfl
@[simp] theorem State.setBank_portB (s : State) (j : BankIx) (p : Packet) : (s.setBank j p).portB = s.portB := by
  unfold State.setBank; split <;> rfl
@[simp] theorem State.setBank_portData (s : State) (j : BankIx) (p : Packet) : (s.setBank j p).portData = s.portData := by
  unfold State.setBank; split <;> rfl
@[simp] theorem State.setBank_cmds (s : State) (j : BankIx) (p : Packet) : (s.setBank j p).cmds = s.cmds := by
  unfold State.setBank; split <;> rfl
@[simp] theorem State.setBank_results (s : State) (j : BankIx) (p : Packet) : (s.setBank j p).results = s.results := by
  unfold State.setBank; split <;> rfl
@[simp] theorem State.setBank_rx (s : State) (j : BankIx) (p : Packet) : (s.setBank j p).rx = s.rx := by
  unfold State.setBank; split <;> rfl
@[simp] theorem State.setBank_tx (s : State) (j : BankIx) (p : Packet) : (s.setBank j p).tx = s.tx := by
  unfold State.setBank; split <;> rfl
@[simp] theorem State.setBank_txAns (s : State) (j : BankIx) (p : Packet) : (s.setBank j p).txAns = s.txAns := by
  unfold State.setBank; split <;> rfl
@[simp] theorem State.setBank_resetLine (s : State) (j : BankIx) (p : Packet) : (s.setBank j p).resetLine = s.resetLine := by
  unfold State.setBank; split <;> rfl
@[simp] theorem State.updBank_laddr (s : State) (j : BankIx) (g : Packet → Packet) : (s.updBank j g).laddr = s.laddr :=
  State.setBank_laddr s j _
@[simp] theorem State.updBank_status (s : State) (j : BankIx) (g : Packet → Packet) : (s.updBank j g).status = s.status :=
  State.setBank_status s j _
@[simp] theorem State.updBank_rxs (s : State) (j : BankIx) (g : Packet → Packet) : (s.updBank j g).rxs = s.rxs :=
  State.setBank_rxs s j _
@[simp] theorem State.updBank_rxlen (s : State) (j : BankIx) (g : Packet → Packet) : (s.updBank j g).rxlen = s.rxlen :=
  State.setBank_rxlen s j _
@[simp] theorem State.updBank_rxcnt (s : State) (j : BankIx) (g : Packet → Packet) : (s.updBank j g).rxcnt = s.rxcnt :=
  State.setBank_rxcnt s j _
@[simp] theorem State.updBank_rxsum (s : State) (j : BankIx) (g : Packet → Packet) : (s.updBank j g).rxsum = s.rxsum :=
  State.setBank_rxsum s j _
@[simp] theorem State.updBank_rxbuf (s : State) (j : BankIx) (g : Packet → Packet) : (s.updBank j g).rxbuf = s.rxbuf :=
  State.setBank_rxbuf s j _
@[simp] theorem State.updBank_rxk (s : State) (j : BankIx) (g : Packet → Packet) : (s.updBank j g).rxk = s.rxk :=
  State.setBank_rxk s j _
@[simp] theorem State.updBank_txs (s : State) (j : BankIx) (g : Packet → Packet) : (s.updBank j g).txs = s.txs :=
  State.setBank_txs s j _
@[simp] theorem State.updBank_txbuf (s : State) (j : BankIx) (g : Packet → Packet) : (s.updBank j g).txbuf = s.txbuf :=
  State.setBank_txbuf s j _
@[simp] theorem State.updBank_txn (s : State) (j : BankIx) (g : Packet → Packet) : (s.updBank j g).txn = s.txn :=
  State.setBank_txn s j _
@[simp] theorem State.updBank_txpos (s : State) (j : BankIx) (g : Packet → Packet) : (s.updBank j g).txpos = s.txpos :=
  State.setBank_txpos s j _
@[simp] theorem State.updBank_portA (s : State) (j : BankIx) (g : Packet → Packet) : (s.updBank j g).portA = s.portA :=
  State.setBank_portA s j _
@[simp] theorem State.updBank_portB (s : State) (j : BankIx) (g : Packet → Packet) : (s.updBank j g).portB = s.portB :=
  State.setBank_portB s j _
@[simp] theorem State.updBank_portData (s : State) (j : BankIx) (g : Packet → Packet) : (s.updBank j g).portData = s.portData :=
  State.setBank_portData s j _
@[simp] theorem State.updBank_cmds (s : State) (j : BankIx) (g : Packet → Packet) : (s.updBank j g).cmds = s.cmds :=
  State.setBank_cmds s j _
@[simp] theorem State.updBank_results (s : State) (j : BankIx) (g : Packet → Packet) : (s.updBank j g).results = s.results :=
  State.setBank_results s j _
@[simp] theorem State.updBank_rx (s : State) (j : BankIx) (g : Packet → Packet) : (s.updBank j g).rx = s.rx :=
  State.setBank_rx s j _
@[simp] theorem State.updBank_tx (s : State) (j : BankIx) (g : Packet → Packet) : (s.updBank j g).tx = s.tx :=
  State.setBank_tx s j _
@[simp] theorem State.updBank_txAns (s : State) (j : BankIx) (g : Packet → Packet) : (s.updBank j g).txAns = s.txAns :=
  State.setBank_txAns s j _
@[simp] theorem State.updBank_resetLine (s : State) (j : BankIx) (g : Packet → Packet) : (s.updBank j g).resetLine = s.resetLine :=
  State.setBank_resetLine s j _

@[simp] theorem State.bank_setBank_self (s : State) (j : BankIx) (p : Packet) : (s.setBank j p).bank j = p := by
  unfold State.setBank State.bank; split <;> rfl

/-- There are two banks: any two that are not bank 0 are the same. -/
theorem BankIx.eq_of_ne_zero : ∀ {k j : BankIx}, k ≠ 0 → j ≠ 0 → k = j := by decide

theorem State.bank_setBank_ne (s : State) {j k : BankIx} (p : Packet) (h : k ≠ j) : (s.setBank j p).bank k = s.bank k := by
  by_cases hj : j = 0 <;> by_cases hk : k = 0 <;> simp [State.setBank, State.bank, hj, hk]
  · exact absurd (hk.trans hj.symm) h
  · exact absurd (BankIx.eq_of_ne_zero hk hj) h

@[simp] theorem State.bank_updBank_self (s : State) (j : BankIx) (g : Packet → Packet) :
    (s.updBank j g).bank j = g (s.bank j) := State.bank_setBank_self s j _

theorem State.bank_updBank_ne (s : State) {j k : BankIx} (g : Packet → Packet) (h : k ≠ j) :
    (s.updBank j g).bank k = s.bank k := State.bank_setBank_ne s _ h

theorem State.bank_updBank (s : State) (j k : BankIx) (g : Packet → Packet) :
    (s.updBank j g).bank k = if k = j then g (s.bank j) else s.bank k := by
  split
  · subst_vars; exact State.bank_updBank_self s _ g
  · exact State.bank_updBank_ne s g ‹_›

/-- A bank depends on the two bank registers alone. -/
theorem State.bank_congr {s s' : State} (h0 : s'.pk0 = s.pk0) (h1 : s'.pk1 = s.pk1) (k : BankIx) :
    s'.bank k = s.bank k := by
  unfold State.bank; rw [h0, h1]

@[simp] theorem State.bank_complete (s : State) (c : Byte) (e : Ending) (k : BankIx) : (s.complete c e).bank k = s.bank k := rfl
@[simp] theorem State.bank_finish (s : State) (e : Ending) (k : BankIx) : (s.finish e).bank k = s.bank k := rfl
@[simp] theorem State.bank_raise (s : State) (f : FaultName) (i : FaultInfo) (k : BankIx) : (s.raise f i).bank k = s.bank k := rfl
@[simp] theorem State.bank_noPacket (s : State) (c : Byte) (k : BankIx) : (s.noPacket c).bank k = s.bank k := rfl
@[simp] theorem State.bank_issued (s : State) (c : Command) (r : List Command) (k : BankIx) : (s.issued c r).bank k = s.bank k := rfl
@[simp] theorem State.bank_tick (s : State) (k : BankIx) : (s.tick).bank k = s.bank k := rfl
@[simp] theorem State.bank_loadFrame (s : State) (f : List Byte) (k : BankIx) : (s.loadFrame f).bank k = s.bank k := rfl
@[simp] theorem State.bank_startReceive (s : State) (i : BankIx) (k : BankIx) : (s.startReceive i).bank k = s.bank k := rfl

@[simp] theorem State.bank_resetEvent (s : State) (k : BankIx) : s.resetEvent.bank k = Packet.empty := by
  unfold State.bank; split <;> rfl

/-! ## Bank contents -/

@[simp] theorem Packet.putSrc_src (p : Packet) (b : Byte) : (p.putSrc b).src = b := rfl
@[simp] theorem Packet.putSrc_dst (p : Packet) (b : Byte) : (p.putSrc b).dst = p.dst := rfl
@[simp] theorem Packet.putSrc_typ (p : Packet) (b : Byte) : (p.putSrc b).typ = p.typ := rfl
@[simp] theorem Packet.putSrc_pset (p : Packet) (b : Byte) : (p.putSrc b).pset = p.pset := rfl
@[simp] theorem Packet.putSrc_plen (p : Packet) (b : Byte) : (p.putSrc b).plen = p.plen := rfl
@[simp] theorem Packet.putSrc_pay (p : Packet) (b : Byte) : (p.putSrc b).pay = p.pay := rfl
@[simp] theorem Packet.putDst_src (p : Packet) (b : Byte) : (p.putDst b).src = p.src := rfl
@[simp] theorem Packet.putDst_dst (p : Packet) (b : Byte) : (p.putDst b).dst = b := rfl
@[simp] theorem Packet.putDst_typ (p : Packet) (b : Byte) : (p.putDst b).typ = p.typ := rfl
@[simp] theorem Packet.putDst_pset (p : Packet) (b : Byte) : (p.putDst b).pset = p.pset := rfl
@[simp] theorem Packet.putDst_plen (p : Packet) (b : Byte) : (p.putDst b).plen = p.plen := rfl
@[simp] theorem Packet.putDst_pay (p : Packet) (b : Byte) : (p.putDst b).pay = p.pay := rfl
@[simp] theorem Packet.putTyp_src (p : Packet) (b : Byte) : (p.putTyp b).src = p.src := rfl
@[simp] theorem Packet.putTyp_dst (p : Packet) (b : Byte) : (p.putTyp b).dst = p.dst := rfl
@[simp] theorem Packet.putTyp_typ (p : Packet) (b : Byte) : (p.putTyp b).typ = b := rfl
@[simp] theorem Packet.putTyp_pset (p : Packet) (b : Byte) : (p.putTyp b).pset = p.pset := rfl
@[simp] theorem Packet.putTyp_plen (p : Packet) (b : Byte) : (p.putTyp b).plen = p.plen := rfl
@[simp] theorem Packet.putTyp_pay (p : Packet) (b : Byte) : (p.putTyp b).pay = p.pay := rfl
@[simp] theorem Packet.cleared_src (p : Packet) : (p.cleared).src = 0x00#8 := rfl
@[simp] theorem Packet.cleared_dst (p : Packet) : (p.cleared).dst = 0x00#8 := rfl
@[simp] theorem Packet.cleared_typ (p : Packet) : (p.cleared).typ = 0x00#8 := rfl
@[simp] theorem Packet.cleared_pset (p : Packet) : (p.cleared).pset = false := rfl
@[simp] theorem Packet.cleared_plen (p : Packet) : (p.cleared).plen = 0x00#8 := rfl
@[simp] theorem Packet.cleared_pay (p : Packet) : (p.cleared).pay = p.pay := rfl
@[simp] theorem Packet.store_src (p : Packet) (bs : List Byte) : (p.store bs).src = p.src := rfl
@[simp] theorem Packet.store_dst (p : Packet) (bs : List Byte) : (p.store bs).dst = p.dst := rfl
@[simp] theorem Packet.store_typ (p : Packet) (bs : List Byte) : (p.store bs).typ = p.typ := rfl
@[simp] theorem Packet.store_pset (p : Packet) (bs : List Byte) : (p.store bs).pset = true := rfl
@[simp] theorem Packet.store_plen (p : Packet) (bs : List Byte) : (p.store bs).plen = BitVec.ofNat 8 bs.length := rfl
@[simp] theorem Packet.store_pay (p : Packet) (bs : List Byte) : (p.store bs).pay = p.pay.writeN 0 bs := rfl
@[simp] theorem Packet.materialize_src (p : Packet) (m : Memory) (n : Nat) : (p.materialize m n).src = m.read 1 := rfl
@[simp] theorem Packet.materialize_dst (p : Packet) (m : Memory) (n : Nat) : (p.materialize m n).dst = m.read 0 := rfl
@[simp] theorem Packet.materialize_typ (p : Packet) (m : Memory) (n : Nat) : (p.materialize m n).typ = m.read 2 := rfl
@[simp] theorem Packet.materialize_pset (p : Packet) (m : Memory) (n : Nat) : (p.materialize m n).pset = true := rfl
@[simp] theorem Packet.materialize_plen (p : Packet) (m : Memory) (n : Nat) : (p.materialize m n).plen = BitVec.ofNat 8 (m.readN 3 n).length := rfl
@[simp] theorem Packet.materialize_pay (p : Packet) (m : Memory) (n : Nat) : (p.materialize m n).pay = p.pay.writeN 0 (m.readN 3 n) := rfl

/-! ## The transmit engine's answer -/

@[simp] theorem State.txTaken_pk0 (s : State) (w : List Byte) (r : List TxAnswer) : (s.txTaken w r).pk0 = s.pk0 := rfl
@[simp] theorem State.txTaken_pk1 (s : State) (w : List Byte) (r : List TxAnswer) : (s.txTaken w r).pk1 = s.pk1 := rfl
@[simp] theorem State.txTaken_laddr (s : State) (w : List Byte) (r : List TxAnswer) : (s.txTaken w r).laddr = s.laddr := rfl
@[simp] theorem State.txTaken_status (s : State) (w : List Byte) (r : List TxAnswer) : (s.txTaken w r).status = s.status := rfl
@[simp] theorem State.txTaken_rxs (s : State) (w : List Byte) (r : List TxAnswer) : (s.txTaken w r).rxs = s.rxs := rfl
@[simp] theorem State.txTaken_rxlen (s : State) (w : List Byte) (r : List TxAnswer) : (s.txTaken w r).rxlen = s.rxlen := rfl
@[simp] theorem State.txTaken_rxcnt (s : State) (w : List Byte) (r : List TxAnswer) : (s.txTaken w r).rxcnt = s.rxcnt := rfl
@[simp] theorem State.txTaken_rxsum (s : State) (w : List Byte) (r : List TxAnswer) : (s.txTaken w r).rxsum = s.rxsum := rfl
@[simp] theorem State.txTaken_rxbuf (s : State) (w : List Byte) (r : List TxAnswer) : (s.txTaken w r).rxbuf = s.rxbuf := rfl
@[simp] theorem State.txTaken_rxk (s : State) (w : List Byte) (r : List TxAnswer) : (s.txTaken w r).rxk = s.rxk := rfl
@[simp] theorem State.txTaken_txs (s : State) (w : List Byte) (r : List TxAnswer) : (s.txTaken w r).txs = s.txs := rfl
@[simp] theorem State.txTaken_txbuf (s : State) (w : List Byte) (r : List TxAnswer) : (s.txTaken w r).txbuf = s.txbuf := rfl
@[simp] theorem State.txTaken_txn (s : State) (w : List Byte) (r : List TxAnswer) : (s.txTaken w r).txn = s.txn := rfl
@[simp] theorem State.txTaken_txpos (s : State) (w : List Byte) (r : List TxAnswer) :
    (s.txTaken w r).txpos = s.txpos + BitVec.ofNat 8 w.length := rfl
@[simp] theorem State.txTaken_portA (s : State) (w : List Byte) (r : List TxAnswer) : (s.txTaken w r).portA = s.portA := rfl
@[simp] theorem State.txTaken_portB (s : State) (w : List Byte) (r : List TxAnswer) : (s.txTaken w r).portB = s.portB := rfl
@[simp] theorem State.txTaken_portData (s : State) (w : List Byte) (r : List TxAnswer) : (s.txTaken w r).portData = s.portData := rfl
@[simp] theorem State.txTaken_cmds (s : State) (w : List Byte) (r : List TxAnswer) : (s.txTaken w r).cmds = s.cmds := rfl
@[simp] theorem State.txTaken_results (s : State) (w : List Byte) (r : List TxAnswer) : (s.txTaken w r).results = s.results := rfl
@[simp] theorem State.txTaken_rx (s : State) (w : List Byte) (r : List TxAnswer) : (s.txTaken w r).rx = s.rx := rfl
@[simp] theorem State.txTaken_tx (s : State) (w : List Byte) (r : List TxAnswer) : (s.txTaken w r).tx = s.tx ++ w := rfl
@[simp] theorem State.txTaken_txAns (s : State) (w : List Byte) (r : List TxAnswer) : (s.txTaken w r).txAns = r := rfl
@[simp] theorem State.txTaken_resetLine (s : State) (w : List Byte) (r : List TxAnswer) : (s.txTaken w r).resetLine = s.resetLine := rfl

@[simp] theorem State.bank_txTaken (s : State) (w : List Byte) (r : List TxAnswer) (k : BankIx) : (s.txTaken w r).bank k = s.bank k := rfl

/-! ## The receive transitions -/

@[simp] theorem State.rxTaken_pk0 (s : State) (r : List RxEvent) : (s.rxTaken r).pk0 = s.pk0 := rfl
@[simp] theorem State.rxTaken_pk1 (s : State) (r : List RxEvent) : (s.rxTaken r).pk1 = s.pk1 := rfl
@[simp] theorem State.rxTaken_laddr (s : State) (r : List RxEvent) : (s.rxTaken r).laddr = s.laddr := rfl
@[simp] theorem State.rxTaken_status (s : State) (r : List RxEvent) : (s.rxTaken r).status = s.status := rfl
@[simp] theorem State.rxTaken_rxs (s : State) (r : List RxEvent) : (s.rxTaken r).rxs = s.rxs := rfl
@[simp] theorem State.rxTaken_rxlen (s : State) (r : List RxEvent) : (s.rxTaken r).rxlen = s.rxlen := rfl
@[simp] theorem State.rxTaken_rxcnt (s : State) (r : List RxEvent) : (s.rxTaken r).rxcnt = s.rxcnt := rfl
@[simp] theorem State.rxTaken_rxsum (s : State) (r : List RxEvent) : (s.rxTaken r).rxsum = s.rxsum := rfl
@[simp] theorem State.rxTaken_rxbuf (s : State) (r : List RxEvent) : (s.rxTaken r).rxbuf = s.rxbuf := rfl
@[simp] theorem State.rxTaken_rxk (s : State) (r : List RxEvent) : (s.rxTaken r).rxk = s.rxk := rfl
@[simp] theorem State.rxTaken_txs (s : State) (r : List RxEvent) : (s.rxTaken r).txs = s.txs := rfl
@[simp] theorem State.rxTaken_txbuf (s : State) (r : List RxEvent) : (s.rxTaken r).txbuf = s.txbuf := rfl
@[simp] theorem State.rxTaken_txn (s : State) (r : List RxEvent) : (s.rxTaken r).txn = s.txn := rfl
@[simp] theorem State.rxTaken_txpos (s : State) (r : List RxEvent) : (s.rxTaken r).txpos = s.txpos := rfl
@[simp] theorem State.rxTaken_portA (s : State) (r : List RxEvent) : (s.rxTaken r).portA = s.portA := rfl
@[simp] theorem State.rxTaken_portB (s : State) (r : List RxEvent) : (s.rxTaken r).portB = s.portB := rfl
@[simp] theorem State.rxTaken_portData (s : State) (r : List RxEvent) : (s.rxTaken r).portData = s.portData := rfl
@[simp] theorem State.rxTaken_cmds (s : State) (r : List RxEvent) : (s.rxTaken r).cmds = s.cmds := rfl
@[simp] theorem State.rxTaken_results (s : State) (r : List RxEvent) : (s.rxTaken r).results = s.results := rfl
@[simp] theorem State.rxTaken_rx (s : State) (r : List RxEvent) : (s.rxTaken r).rx = r := rfl
@[simp] theorem State.rxTaken_tx (s : State) (r : List RxEvent) : (s.rxTaken r).tx = s.tx := rfl
@[simp] theorem State.rxTaken_txAns (s : State) (r : List RxEvent) : (s.rxTaken r).txAns = s.txAns := rfl
@[simp] theorem State.rxTaken_resetLine (s : State) (r : List RxEvent) : (s.rxTaken r).resetLine = s.resetLine := rfl

@[simp] theorem State.bank_rxTaken (s : State) (r : List RxEvent) (k : BankIx) : (s.rxTaken r).bank k = s.bank k := rfl

@[simp] theorem bodyByte_pk0 (b : Byte) (s : State) : (bodyByte b s).pk0 = s.pk0 := rfl
@[simp] theorem bodyByte_pk1 (b : Byte) (s : State) : (bodyByte b s).pk1 = s.pk1 := rfl
@[simp] theorem bodyByte_laddr (b : Byte) (s : State) : (bodyByte b s).laddr = s.laddr := rfl
@[simp] theorem bodyByte_status (b : Byte) (s : State) : (bodyByte b s).status = s.status := rfl
@[simp] theorem bodyByte_rxs (b : Byte) (s : State) : (bodyByte b s).rxs = .readBody := rfl
@[simp] theorem bodyByte_rxlen (b : Byte) (s : State) : (bodyByte b s).rxlen = s.rxlen := rfl
@[simp] theorem bodyByte_rxcnt (b : Byte) (s : State) : (bodyByte b s).rxcnt = s.rxcnt + 0x01#8 := rfl
@[simp] theorem bodyByte_rxsum (b : Byte) (s : State) : (bodyByte b s).rxsum = s.rxsum + b := rfl
@[simp] theorem bodyByte_rxbuf (b : Byte) (s : State) : (bodyByte b s).rxbuf = if s.rxcnt.toNat < Config.RXBUF_SIZE then s.rxbuf.write s.rxcnt.toNat b else s.rxbuf := rfl
@[simp] theorem bodyByte_rxk (b : Byte) (s : State) : (bodyByte b s).rxk = s.rxk := rfl
@[simp] theorem bodyByte_txs (b : Byte) (s : State) : (bodyByte b s).txs = s.txs := rfl
@[simp] theorem bodyByte_txbuf (b : Byte) (s : State) : (bodyByte b s).txbuf = s.txbuf := rfl
@[simp] theorem bodyByte_txn (b : Byte) (s : State) : (bodyByte b s).txn = s.txn := rfl
@[simp] theorem bodyByte_txpos (b : Byte) (s : State) : (bodyByte b s).txpos = s.txpos := rfl
@[simp] theorem bodyByte_portA (b : Byte) (s : State) : (bodyByte b s).portA = s.portA := rfl
@[simp] theorem bodyByte_portB (b : Byte) (s : State) : (bodyByte b s).portB = s.portB := rfl
@[simp] theorem bodyByte_portData (b : Byte) (s : State) : (bodyByte b s).portData = s.portData := rfl
@[simp] theorem bodyByte_cmds (b : Byte) (s : State) : (bodyByte b s).cmds = s.cmds := rfl
@[simp] theorem bodyByte_results (b : Byte) (s : State) : (bodyByte b s).results = s.results := rfl
@[simp] theorem bodyByte_rx (b : Byte) (s : State) : (bodyByte b s).rx = s.rx := rfl
@[simp] theorem bodyByte_tx (b : Byte) (s : State) : (bodyByte b s).tx = s.tx := rfl
@[simp] theorem bodyByte_txAns (b : Byte) (s : State) : (bodyByte b s).txAns = s.txAns := rfl
@[simp] theorem bodyByte_resetLine (b : Byte) (s : State) : (bodyByte b s).resetLine = s.resetLine := rfl

/-! ## Replacing a bank before or after an update that reads no bank -/

@[simp] theorem State.tick_setBank (s : State) (k : BankIx) (p : Packet) :
    (s.setBank k p).tick = s.tick.setBank k p := by unfold State.setBank; split <;> rfl

@[simp] theorem State.complete_setBank (s : State) (k : BankIx) (p : Packet) (c : Byte) (e : Ending) :
    (s.setBank k p).complete c e = (s.complete c e).setBank k p := by unfold State.setBank; split <;> rfl

@[simp] theorem State.finish_setBank (s : State) (k : BankIx) (p : Packet) (e : Ending) :
    (s.setBank k p).finish e = (s.finish e).setBank k p := State.complete_setBank ..

@[simp] theorem State.raise_setBank (s : State) (k : BankIx) (p : Packet) (f : FaultName) (i : FaultInfo) :
    (s.setBank k p).raise f i = (s.raise f i).setBank k p := State.complete_setBank ..

@[simp] theorem State.noPacket_setBank (s : State) (k : BankIx) (p : Packet) (c : Byte) :
    (s.setBank k p).noPacket c = (s.noPacket c).setBank k p := State.complete_setBank ..

@[simp] theorem State.startReceive_setBank (s : State) (j k : BankIx) (p : Packet) :
    (s.setBank k p).startReceive j = (s.startReceive j).setBank k p := by unfold State.setBank; split <;> rfl

@[simp] theorem State.rxTaken_setBank (s : State) (k : BankIx) (p : Packet) (r : List RxEvent) :
    (s.setBank k p).rxTaken r = (s.rxTaken r).setBank k p := by unfold State.setBank; split <;> rfl

@[simp] theorem State.txTaken_setBank (s : State) (k : BankIx) (p : Packet) (w : List Byte) (r : List TxAnswer) :
    (s.setBank k p).txTaken w r = (s.txTaken w r).setBank k p := by unfold State.setBank; split <;> rfl

@[simp] theorem State.loadFrame_setBank (s : State) (k : BankIx) (p : Packet) (f : List Byte) :
    (s.setBank k p).loadFrame f = (s.loadFrame f).setBank k p := by unfold State.setBank; split <;> rfl

@[simp] theorem State.loadedFrame_setBank (s : State) (k : BankIx) (p : Packet) :
    (s.setBank k p).loadedFrame = s.loadedFrame := by unfold State.setBank; split <;> rfl

@[simp] theorem State.unsent_setBank (s : State) (k : BankIx) (p : Packet) :
    (s.setBank k p).unsent = s.unsent := by unfold State.setBank; split <;> rfl

@[simp] theorem bodyByte_setBank (b : Byte) (s : State) (k : BankIx) (p : Packet) :
    bodyByte b (s.setBank k p) = (bodyByte b s).setBank k p := by unfold State.setBank; split <;> rfl

end Sys2Proof.Machine
end

