-- ==== Sys2Proof/Laws/Ops.lean ====
section
/-!
SUPPORT. One lemma for each shared operation, which says everything it can do, and the small lemmas of the predicates of
Sys2Proof/Safety.lean.
-/

namespace Sys2Proof.Machine

/-! ## The bank field -/

@[simp] theorem bankField_toNat (j : BankIx) : (bankField j).toNat = j.val := by
  revert j; decide

/-- A command that names bank `j` acts on bank `j`. -/
@[simp] theorem withBank_bankField (j : BankIx) (s : State) (act : BankIx → Host.Outcome State Fault Refusal) :
    withBank (bankField j) s act = act j := by
  have h : (bankField j).toNat < Config.NPKT := by rw [bankField_toNat]; exact j.isLt
  unfold withBank
  rw [dif_pos h]
  congr 1
  exact Fin.ext (bankField_toNat j)

/-- Rule R83: a bank field out of range. -/
theorem withBank_illegal {k : BitVec 8} (s : State) (act : BankIx → Host.Outcome State Fault Refusal)
    (h : Config.NPKT ≤ k.toNat) : withBank k s act = .next s.illegalCommand := dif_neg (by omega)

/-- Everything a command that names a bank can do. -/
theorem withBank_cases (k : BitVec 8) (s : State) (act : BankIx → Host.Outcome State Fault Refusal) :
    (∃ j, k = bankField j ∧ withBank k s act = act j) ∨
      (Config.NPKT ≤ k.toNat ∧ withBank k s act = .next s.illegalCommand) := by
  by_cases h : k.toNat < Config.NPKT
  · have hk : k = bankField ⟨k.toNat, h⟩ := BitVec.eq_of_toNat_eq (bankField_toNat ⟨k.toNat, h⟩).symm
    refine Or.inl ⟨⟨k.toNat, h⟩, hk, ?_⟩
    conv_lhs => rw [hk]
    exact withBank_bankField _ s act
  · exact Or.inr ⟨by omega, dif_neg h⟩

/-! ## The predicates -/

@[simp] theorem SameBytes.refl (m : Memory) : SameBytes m m := fun _ => rfl

@[simp] theorem SamePayload.refl (p : Packet) : SamePayload p p := ⟨rfl, rfl, SameBytes.refl _⟩

@[simp] theorem SameHeader.refl (p : Packet) : SameHeader p p := ⟨rfl, rfl, rfl⟩

@[simp] theorem SamePacket.refl (p : Packet) : SamePacket p p := ⟨SameHeader.refl p, SamePayload.refl p⟩

theorem SameBanks.of_eq {s t : State} (h : ∀ k, t.bank k = s.bank k) : SameBanks s t := fun k => by
  rw [h k]; exact SamePacket.refl _

theorem SameBanksBut.of_eq {s t : State} {j : BankIx} (h : ∀ k, k ≠ j → t.bank k = s.bank k) : SameBanksBut j s t :=
  fun k hk => by rw [h k hk]; exact SamePacket.refl _

@[simp] theorem SameBanks.complete (s : State) (c : Byte) (e : Ending) : SameBanks s (s.complete c e) :=
  SameBanks.of_eq fun _ => rfl

@[simp] theorem SameOutsideBanks.complete (s : State) (c : Byte) (e : Ending) : SameOutsideBanks s (s.complete c e) :=
  ⟨rfl, ⟨rfl, rfl, rfl, rfl, SameBytes.refl _⟩, ⟨rfl, rfl, SameBytes.refl _⟩, ⟨rfl, rfl, rfl⟩, ⟨rfl, rfl, rfl, rfl, rfl⟩⟩

@[simp] theorem Ends.complete (s : State) (c : Byte) (e : Ending) : Ends s (s.complete c e) c e := ⟨rfl, rfl, rfl, rfl⟩

/-- Only the bank registers differ after a bank is written. -/
theorem SameOutsideBanks.updBank_complete (s : State) (j : BankIx) (g : Packet → Packet) (c : Byte) (e : Ending) :
    SameOutsideBanks s ((s.updBank j g).complete c e) := by
  simp [SameOutsideBanks, SameRxEngine, SameTxEngine, SameStreams, SamePorts]

theorem Ends.updBank_complete (s : State) (j : BankIx) (g : Packet → Packet) (c : Byte) (e : Ending) :
    Ends s ((s.updBank j g).complete c e) c e := by
  simp [Ends]

theorem SameBanksBut.updBank_complete (s : State) (j : BankIx) (g : Packet → Packet) (c : Byte) (e : Ending) :
    SameBanksBut j s ((s.updBank j g).complete c e) :=
  SameBanksBut.of_eq fun _ hk => by simp [State.bank_updBank_ne s g hk]

/-! ## Byte operands -/

theorem rangeOK_byte (v : Int) : RangeOK v 1 .U ↔ 0 ≤ v ∧ v ≤ 255 := by
  simp [RangeOK, rangeMin, rangeMax]

/-- A value that passed the range check for a byte is the number the byte holds. -/
theorem byteOf_toNat {v : Int} (h0 : 0 ≤ v) (h1 : v ≤ 255) : ((byteOf v).toNat : Int) = v := by
  unfold byteOf
  rw [BitVec.toNat_ofInt]
  omega

theorem storeCheckedByte_ok {s : State} (put : Byte → State) (h : RangeOK s.portA 1 .U) :
    storeCheckedByte s put = .next ((put (byteOf s.portA)).finish .ok) := if_pos h

theorem storeCheckedByte_range {s : State} (put : Byte → State) (h : ¬ RangeOK s.portA 1 .U) :
    storeCheckedByte s put = .next (s.raiseRange 1 .U s.portA) := if_neg h

theorem overwriteHeader_absent (v : Int) (put : Byte → Packet → Packet) (j : BankIx) (s : State) :
    overwriteHeader false v put j s = .ok s := rfl

theorem overwriteHeader_ok {v : Int} (put : Byte → Packet → Packet) (j : BankIx) (s : State) (h : RangeOK v 1 .U) :
    overwriteHeader true v put j s = .ok (s.updBank j (put (byteOf v))) := if_pos h

theorem overwriteHeader_range {v : Int} (put : Byte → Packet → Packet) (j : BankIx) (s : State)
    (h : ¬ RangeOK v 1 .U) : overwriteHeader true v put j s = .error (s.raiseRange 1 .U v) := if_neg h

/-! ## Payloads -/

theorem storePayload_ok {bs : List Byte} (j : BankIx) (s : State) (h : bs.length ≤ 128) :
    storePayload j bs s = (s.updBank j fun p => p.store bs).finish .ok := if_neg (by simpa using h)

theorem storePayload_overflow {bs : List Byte} (j : BankIx) (s : State) (h : 128 < bs.length) :
    storePayload j bs s = s.raiseOverflow := if_pos h

theorem readPayload_unset {s : State} {j : BankIx} (use : List Byte → State) (h : (s.bank j).pset = false) :
    readPayload j s use = .next (s.raise .nodata .none) := by simp [readPayload, h]

theorem readPayload_set {s : State} {j : BankIx} (use : List Byte → State) (h : (s.bank j).pset = true)
    (hl : (s.bank j).plen.toNat ≤ 128) :
    readPayload j s use = .next (use ((s.bank j).pay.readN 0 (s.bank j).plen.toNat)) := by
  simp [readPayload, h, Packet.payload, Memory.readFirst_some hl]

theorem readPayload_stops {s : State} {j : BankIx} (use : List Byte → State) (h : (s.bank j).pset = true)
    (hl : 128 < (s.bank j).plen.toNat) : readPayload j s use = .fault .payloadIndex := by
  simp [readPayload, h, Packet.payload, Memory.readFirst_none hl]

theorem Packet.abs_payload_some {p : Packet} {bs : List Byte} :
    p.abs.payload = some bs ↔ p.pset = true ∧ p.pay.readN 0 p.plen.toNat = bs := by
  unfold Packet.abs
  by_cases h : p.pset = true <;> simp [h]

theorem Packet.abs_payload_length {p : Packet} {bs : List Byte} (h : p.abs.payload = some bs) :
    p.plen.toNat = bs.length := by
  rw [← (Packet.abs_payload_some.1 h).2, Memory.readN_length]

/-- Rule R120: the payload that was stored is the payload of the bank. -/
theorem Packet.store_abs {p : Packet} (h : p.pay.wf 128 = true) {bs : List Byte} (hl : bs.length ≤ 128) :
    (p.store bs).abs.payload = some bs := by
  have hn : (BitVec.ofNat 8 bs.length).toNat = bs.length := by
    rw [BitVec.toNat_ofNat]; omega
  rw [Packet.abs_payload_some]
  refine ⟨rfl, ?_⟩
  rw [Packet.store_pay, Packet.store_plen, hn]
  exact Memory.readN_writeN h bs (by omega)

/-! ## The transmit engine -/

theorem txAnswer_none {s : State} (h : s.txAns = []) : txAnswer s = .next s := by simp [txAnswer, h]

theorem State.unsent_some {s : State} {f : List Byte} (hf : s.loadedFrame = some f) :
    s.unsent = some (f.drop s.txpos.toNat) := by simp [State.unsent, hf]

theorem State.unsent_none {s : State} : s.unsent = none ↔ s.loadedFrame = none := by simp [State.unsent]

theorem txAnswer_pending {s : State} {rest : List TxAnswer} {n : Nat} {f : List Byte}
    (h : s.txAns = .pending n :: rest) (hf : s.unsent = some f) :
    txAnswer s = .next (s.txTaken (f.take n) rest) := by simp [txAnswer, h, hf]

theorem txAnswer_done {s : State} {rest : List TxAnswer} {f : List Byte} (h : s.txAns = .done :: rest)
    (hf : s.unsent = some f) :
    txAnswer s = .next ((s.txTaken f rest).finish .ok) := by simp [txAnswer, h, hf]

theorem txAnswer_ioerr {s : State} {rest : List TxAnswer} {n : Nat} {f : List Byte} (h : s.txAns = .ioerr n :: rest)
    (hf : s.unsent = some f) :
    txAnswer s = .next ((s.txTaken (f.take n) rest).raise .transport .none) := by
  simp [txAnswer, h, hf]

/-- Everything the transmit engine can do in a step of the transport. -/
theorem txAnswer_cases (s : State) :
    (s.txAns = [] ∧ txAnswer s = .next s) ∨
    (∃ f n rest, s.txAns = .pending n :: rest ∧ s.unsent = some f ∧
      txAnswer s = .next (s.txTaken (f.take n) rest)) ∨
    (∃ f rest, s.txAns = .done :: rest ∧ s.unsent = some f ∧
      txAnswer s = .next ((s.txTaken f rest).finish .ok)) ∨
    (∃ f n rest, s.txAns = .ioerr n :: rest ∧ s.unsent = some f ∧
      txAnswer s = .next ((s.txTaken (f.take n) rest).raise .transport .none)) ∨
    (s.txAns ≠ [] ∧ s.loadedFrame = none ∧ txAnswer s = .fault .frameOffset) := by
  cases h : s.txAns with
  | nil => exact .inl ⟨rfl, txAnswer_none h⟩
  | cons a rest =>
    right
    cases hf : s.unsent with
    | none => exact .inr (.inr (.inr ⟨nofun, State.unsent_none.1 hf, by simp [txAnswer, h, hf]⟩))
    | some f =>
      cases a with
      | pending n => exact .inl ⟨f, n, rest, rfl, rfl, txAnswer_pending h hf⟩
      | done => exact .inr (.inl ⟨f, rest, rfl, rfl, txAnswer_done h hf⟩)
      | ioerr n => exact .inr (.inr (.inl ⟨f, n, rest, rfl, rfl, txAnswer_ioerr h hf⟩))

theorem encodeFrame_length (dst src typ : Byte) (p : List Byte) : (encodeFrame dst src typ p).length = p.length + 6 := by
  simp [encodeFrame]

/-- Rule R22: a frame that was loaded is the frame in `TXBUF`. -/
theorem State.loadedFrame_loadFrame {s : State} (h : s.txbuf.wf 134 = true) {f : List Byte} (hl : f.length ≤ 134) :
    (s.loadFrame f).loadedFrame = some f := by
  have hn : (BitVec.ofNat 8 f.length).toNat = f.length := by
    rw [BitVec.toNat_ofNat]; omega
  unfold State.loadedFrame
  rw [State.loadFrame_txn, State.loadFrame_txbuf, hn, Memory.readFirst_some hl]
  congr 1
  exact Memory.readN_writeN h f (by omega)

/-- Rule R163: nothing of a frame that was just loaded has left. -/
theorem State.unsent_loadFrame {s : State} (h : s.txbuf.wf 134 = true) {f : List Byte} (hl : f.length ≤ 134) :
    (s.loadFrame f).unsent = some f := State.unsent_some (State.loadedFrame_loadFrame h hl)

/-- Everything a SEND does after its operands: the fault of an unset payload, a stop outside rule R16, or the frame handed
to the transmit engine. -/
theorem sendStamped_unset {s : State} {j : BankIx} (h : (s.bank j).pset = false) :
    sendStamped j s = .next ((s.updBank j (Packet.putSrc s.laddr)).raise .nodata .none) := by
  simp [sendStamped, h]

theorem sendStamped_set {s : State} {j : BankIx} {p : List Byte} (h : (s.bank j).abs.payload = some p)
    (hl : p.length ≤ 128) :
    sendStamped j s = txAnswer ((s.updBank j (Packet.putSrc s.laddr)).loadFrame
      (encodeFrame (s.bank j).dst s.laddr (s.bank j).typ p)) := by
  obtain ⟨h1, h2⟩ := Packet.abs_payload_some.1 h
  have hp := Packet.abs_payload_length h
  simp only [sendStamped, State.bank_updBank_self, Packet.putSrc_pset, h1, if_true, Packet.payload,
    Packet.putSrc_pay, Packet.putSrc_plen, Packet.putSrc_dst, Packet.putSrc_typ, Packet.putSrc_src]
  rw [Memory.readFirst_some (show _ ≤ 128 by omega), h2]

theorem sendStamped_stops {s : State} {j : BankIx} (h : (s.bank j).pset = true) (hl : 128 < (s.bank j).plen.toNat) :
    sendStamped j s = .fault .payloadIndex := by
  simp [sendStamped, h, Packet.payload, Memory.readFirst_none hl]

/-! ## The step -/

theorem step_noReset {s : State} (h : NoReset s) : step s = advance s.tick := by
  unfold step
  split
  · exact absurd ‹_› h
  · rfl
  · rfl

theorem step_reset {s : State} (h : s.resetLine.head? = some .assert) : step s = .next s.tick.resetEvent := by
  simp [step, h]

/-- Every step is a reset or none. -/
theorem noReset_or (s : State) : NoReset s ∨ s.resetLine.head? = some .assert :=
  (Decidable.em (s.resetLine.head? = some .assert)).symm

theorem advance_between {s : State} (h : Between s) : advance s = issue s := by
  simp [advance, h.1, h.2]

theorem advance_emit {s : State} (h : s.txs = .emit) : advance s = txAnswer s := by
  simp [advance, h]

theorem advance_receive {s : State} (h : s.txs = .idle) (hr : s.rxs ≠ .idle) : advance s = .next (rxRead s) := by
  cases hx : s.rxs <;> simp_all [advance]

theorem issue_nil {s : State} (h : s.cmds = []) : issue s = .next s := by simp [issue, h]

theorem issue_ok {s : State} {c : Command} {rest : List Command} {i : Instr} (h : s.cmds = c :: rest)
    (hd : decodeCommand c.word = .ok i) : issue s = exec i (s.issued c rest) := by simp [issue, h, hd]

theorem issue_error {s : State} {c : Command} {rest : List Command} {e : DecodeError} (h : s.cmds = c :: rest)
    (hd : decodeCommand c.word = .error e) : issue s = .next (s.issued c rest).illegalCommand := by
  simp [issue, h, hd]

theorem rxRead_cons {s : State} {e : RxEvent} {rest : List RxEvent} (h : s.rx = e :: rest) :
    rxRead s = rxEvent e (s.rxTaken rest) := by simp [rxRead, h]

theorem rxRead_nil {s : State} (h : s.rx = []) : rxRead s = s := by simp [rxRead, h]

/-- Everything a step can do. -/
theorem step_cases (s : State) :
    (s.resetLine.head? = some .assert ∧ step s = .next s.tick.resetEvent) ∨
    (NoReset s ∧ s.txs = .emit ∧ step s = txAnswer s.tick) ∨
    (NoReset s ∧ s.txs = .idle ∧ s.rxs ≠ .idle ∧ step s = .next (rxRead s.tick)) ∨
    (NoReset s ∧ Between s ∧ s.cmds = [] ∧ step s = .next s.tick) ∨
    (∃ c rest i, NoReset s ∧ Between s ∧ s.cmds = c :: rest ∧ decodeCommand c.word = .ok i ∧
      step s = exec i (s.tick.issued c rest)) ∨
    (∃ c rest e, NoReset s ∧ Between s ∧ s.cmds = c :: rest ∧ decodeCommand c.word = .error e ∧
      step s = .next (s.tick.issued c rest).illegalCommand) := by
  rcases noReset_or s with h | h
  · right
    rw [step_noReset h]
    cases ht : s.txs with
    | emit => exact Or.inl ⟨h, rfl, advance_emit ht⟩
    | idle =>
      right
      by_cases hr : s.rxs = .idle
      · right
        have hb : Between s := ⟨hr, ht⟩
        have ha : advance s.tick = issue s.tick := advance_between hb
        rw [ha]
        cases hc : s.cmds with
        | nil => exact Or.inl ⟨h, hb, rfl, issue_nil hc⟩
        | cons c rest =>
          right
          cases hd : decodeCommand c.word with
          | ok i => exact Or.inl ⟨c, rest, i, h, hb, rfl, hd, issue_ok hc hd⟩
          | error e => exact Or.inr ⟨c, rest, e, h, hb, rfl, hd, issue_error hc hd⟩
      · exact Or.inl ⟨h, rfl, hr, advance_receive ht hr⟩
  · exact Or.inl ⟨h, step_reset h⟩

/-! ## An outcome with its next state changed -/

@[simp] theorem onNext_next (f : State → State) (t : State) : onNext f (.next t) = .next (f t) := rfl

@[simp] theorem onNext_fault (f : State → State) (x : Fault) : onNext f (.fault x) = .fault x := rfl

@[simp] theorem onNext_refused (f : State → State) (r : Refusal) : onNext f (.refused r) = .refused r := rfl

/-- Two banks that are not the same can be written in either order. -/
theorem State.updBank_setBank_ne (s : State) {j k : BankIx} (h : k ≠ j) (g : Packet → Packet) (p : Packet) :
    (s.setBank k p).updBank j g = (s.updBank j g).setBank k p := by
  have hb : (s.setBank k p).bank j = s.bank j := State.bank_setBank_ne _ _ h.symm
  unfold State.updBank
  rw [hb]
  by_cases hj : j = 0 <;> by_cases hk : k = 0
  · exact absurd (hk.trans hj.symm) h
  · simp [State.setBank, hj, hk]
  · simp [State.setBank, hj, hk]
  · exact absurd (BankIx.eq_of_ne_zero hk hj) h

end Sys2Proof.Machine
end

