-- ==== Sys2Proof/Laws/Exec.lean ====
section
/-!
SUPPORT. Each meaning in terms of the shared operations, so that a proof about exec rewrites with one equation and unfolds
nothing.
-/

namespace Sys2Proof.Machine

theorem exec_clear (k : BitVec 8) (s : State) : exec (.clear k) s =
    withBank k s fun j => .next ((s.updBank j Packet.cleared).finish .ok) := rfl

theorem exec_setSource (k : BitVec 8) (s : State) : exec (.setSource k) s =
    withBank k s fun j => storeCheckedByte s fun b => s.updBank j (Packet.putSrc b) := rfl

theorem exec_setDestination (k : BitVec 8) (s : State) : exec (.setDestination k) s =
    withBank k s fun j => storeCheckedByte s fun b => s.updBank j (Packet.putDst b) := rfl

theorem exec_setType (k : BitVec 8) (s : State) : exec (.setType k) s =
    withBank k s fun j => storeCheckedByte s fun b => s.updBank j (Packet.putTyp b) := rfl

theorem exec_getSource (k : BitVec 8) (s : State) : exec (.getSource k) s =
    withBank k s fun j => .next (s.finish (.okByte (s.bank j).src)) := rfl

theorem exec_getDestination (k : BitVec 8) (s : State) : exec (.getDestination k) s =
    withBank k s fun j => .next (s.finish (.okByte (s.bank j).dst)) := rfl

theorem exec_getType (k : BitVec 8) (s : State) : exec (.getType k) s =
    withBank k s fun j => .next (s.finish (.okByte (s.bank j).typ)) := rfl

theorem exec_setData (k : BitVec 8) (s : State) : exec (.setData k) s =
    withBank k s fun j => .next (storePayload j s.portData s) := rfl

theorem exec_getData (k : BitVec 8) (s : State) : exec (.getData k) s =
    withBank k s fun j => readPayload j s fun p => s.finish (.okBytes p) := rfl

theorem exec_setString (k : BitVec 8) (s : State) : exec (.setString k) s =
    withBank k s fun j => .next (storePayload j (s.portData ++ [terminator]) s) := rfl

theorem exec_setAddress (s : State) : exec (.setAddress) s =
    storeCheckedByte s fun b => { s with laddr := b } := rfl

theorem exec_getAddress (s : State) : exec (.getAddress) s =
    .next (s.finish (.okByte s.laddr)) := rfl

theorem exec_send (k : BitVec 8) (s : State) : exec (.send k) s =
    sendForm false false k s := rfl

theorem exec_sendT (k : BitVec 8) (s : State) : exec (.sendT k) s =
    sendForm false true k s := rfl

theorem exec_sendD (k : BitVec 8) (s : State) : exec (.sendD k) s =
    sendForm true false k s := rfl

theorem exec_sendDT (k : BitVec 8) (s : State) : exec (.sendDT k) s =
    sendForm true true k s := rfl

theorem exec_receive (k : BitVec 8) (s : State) : exec (.receive k) s =
    withBank k s fun j => .next (s.startReceive j) := rfl

theorem exec_setInteger1U (k : BitVec 8) (s : State) : exec (.setInteger1U k) s =
    setInteger 1 .U k s := rfl

theorem exec_setInteger2U (k : BitVec 8) (s : State) : exec (.setInteger2U k) s =
    setInteger 2 .U k s := rfl

theorem exec_setInteger4U (k : BitVec 8) (s : State) : exec (.setInteger4U k) s =
    setInteger 4 .U k s := rfl

theorem exec_setInteger8U (k : BitVec 8) (s : State) : exec (.setInteger8U k) s =
    setInteger 8 .U k s := rfl

theorem exec_setInteger1S (k : BitVec 8) (s : State) : exec (.setInteger1S k) s =
    setInteger 1 .S k s := rfl

theorem exec_setInteger2S (k : BitVec 8) (s : State) : exec (.setInteger2S k) s =
    setInteger 2 .S k s := rfl

theorem exec_setInteger4S (k : BitVec 8) (s : State) : exec (.setInteger4S k) s =
    setInteger 4 .S k s := rfl

theorem exec_setInteger8S (k : BitVec 8) (s : State) : exec (.setInteger8S k) s =
    setInteger 8 .S k s := rfl

theorem exec_getInteger1U (k : BitVec 8) (s : State) : exec (.getInteger1U k) s =
    getInteger 1 .U k s := rfl

theorem exec_getInteger2U (k : BitVec 8) (s : State) : exec (.getInteger2U k) s =
    getInteger 2 .U k s := rfl

theorem exec_getInteger4U (k : BitVec 8) (s : State) : exec (.getInteger4U k) s =
    getInteger 4 .U k s := rfl

theorem exec_getInteger8U (k : BitVec 8) (s : State) : exec (.getInteger8U k) s =
    getInteger 8 .U k s := rfl

theorem exec_getInteger1S (k : BitVec 8) (s : State) : exec (.getInteger1S k) s =
    getInteger 1 .S k s := rfl

theorem exec_getInteger2S (k : BitVec 8) (s : State) : exec (.getInteger2S k) s =
    getInteger 2 .S k s := rfl

theorem exec_getInteger4S (k : BitVec 8) (s : State) : exec (.getInteger4S k) s =
    getInteger 4 .S k s := rfl

theorem exec_getInteger8S (k : BitVec 8) (s : State) : exec (.getInteger8S k) s =
    getInteger 8 .S k s := rfl

theorem exec_reserved00 (k : BitVec 8) (s : State) : exec (.reserved00 k) s =
    .next s.illegalCommand := rfl

theorem exec_reserved19 (k : BitVec 8) (s : State) : exec (.reserved19 k) s =
    .next s.illegalCommand := rfl

theorem exec_reserved0E (x : BitVec 1) (k : BitVec 8) (s : State) : exec (.reserved0E x k) s =
    .next s.illegalCommand := rfl

theorem exec_reserved14 (x : BitVec 2) (k : BitVec 8) (s : State) : exec (.reserved14 x k) s =
    .next s.illegalCommand := rfl

theorem exec_reserved1A (x : BitVec 1) (k : BitVec 8) (s : State) : exec (.reserved1A x k) s =
    .next s.illegalCommand := rfl

theorem exec_reserved1C (x : BitVec 2) (k : BitVec 8) (s : State) : exec (.reserved1C x k) s =
    .next s.illegalCommand := rfl

theorem exec_reserved30 (x : BitVec 4) (k : BitVec 8) (s : State) : exec (.reserved30 x k) s =
    .next s.illegalCommand := rfl

theorem exec_reserved40 (x : BitVec 6) (k : BitVec 8) (s : State) : exec (.reserved40 x k) s =
    .next s.illegalCommand := rfl

theorem exec_reserved80 (x : BitVec 7) (k : BitVec 8) (s : State) : exec (.reserved80 x k) s =
    .next s.illegalCommand := rfl

theorem exec_frame (rest : List Byte) (s : State) : exec (.frame rest) s =
    .next (deliver (Config.SYN :: rest) s) := rfl

theorem exec_frameFalseSyn (ll : BitVec 2) (s : State) : exec (.frameFalseSyn ll) s =
    .next (deliver [Config.SYN, ll.setWidth 8] s) := rfl

theorem exec_getString (k : BitVec 8) (s : State) : exec (.getString k) s =
    withBank k s fun j => readPayload j s fun p =>
      match textOf p with
      | some t => s.finish (.okBytes t)
      | none => s.raise .format .none := rfl

/-- Everything an integer setter can do on a bank. -/
theorem setInteger_bank (n : Nat) (sg : Sign) (j : BankIx) (s : State) : setInteger n sg (bankField j) s =
    if RangeOK s.portA n sg then .next (storePayload j (leSer n s.portA) s) else .next (s.raiseRange n sg s.portA) := by
  rw [setInteger, withBank_bankField]

/-- Everything an integer getter of at most 128 bytes can do on a bank. -/
theorem getInteger_bank {n : Nat} (hn : n ≤ 128) (sg : Sign) (j : BankIx) (s : State) :
    getInteger n sg (bankField j) s =
    if (s.bank j).pset then
      if (s.bank j).plen.toNat < n then .next (s.raise .decode (.short n (s.bank j).plen.toNat))
      else .next (s.finish (.okInt (leDes n sg ((s.bank j).pay.readN 0 n))))
    else .next (s.raise .nodata .none) := by
  rw [getInteger, withBank_bankField, Memory.readFirst_some hn]

end Sys2Proof.Machine
end

