-- ==== Sys2Proof/Laws/Effect.lean ====
section
/-!
SUPPORT. Everything a command can do, said once: a proof about every command does a case analysis on `CommandEffect` and
unfolds no meaning.
-/

namespace Sys2Proof.Machine

theorem State.updBank_updBank (s : State) (j : BankIx) (f g : Packet → Packet) :
    (s.updBank j f).updBank j g = s.updBank j fun p => g (f p) := by
  unfold State.updBank
  rw [State.bank_setBank_self]
  unfold State.setBank
  split <;> rfl

/-- The code that goes with an ending (rules R87 and R220). -/
def Ending.codeOK (e : Ending) (c : Byte) : Prop :=
  match e with
  | .fault f _ => c = f.code
  | .noPacket => c ∈ [codeEofSeek, codeEofLen, codeEofBody, codeIoerr]
  | .ok | .okByte _ | .okInt _ | .okBytes _ => c = codeOk

/-- A function of a bank that leaves its payload alone. -/
def KeepsPayload (g : Packet → Packet) : Prop := ∀ p, (g p).pset = p.pset ∧ (g p).plen = p.plen ∧ (g p).pay = p.pay

/-- A function of a bank that writes one header byte. -/
def WritesHeader (g : Packet → Packet) : Prop := ∃ b, g = Packet.putSrc b ∨ g = Packet.putDst b ∨ g = Packet.putTyp b

theorem WritesHeader.keepsPayload {g : Packet → Packet} (h : WritesHeader g) : KeepsPayload g := by
  obtain ⟨b, rfl | rfl | rfl⟩ := h <;> exact fun _ => ⟨rfl, rfl, rfl⟩

/-- The four forms of SEND. -/
def isSend : Instr → Bool
  | .send _ | .sendT _ | .sendD _ | .sendDT _ => true
  | _ => false

/-- What a command can do: end and change nothing; write a bank and end with `Ok`; write `LADDR`; start a RECEIVE; a SEND's
fault after its header overwrites; a SEND handed to the transmit engine; or stop outside rule R16. -/
inductive CommandEffect (i : Instr) (s : State) : Host.Outcome State Fault Refusal → Prop
  | ends (c : Byte) (e : Ending) (h : e.codeOK c) : CommandEffect i s (.next (s.complete c e))
  | clears (j : BankIx) (h : i = .clear (bankField j)) :
      CommandEffect i s (.next ((s.updBank j Packet.cleared).complete codeOk .ok))
  | header (j : BankIx) (g : Packet → Packet) (h : WritesHeader g) :
      CommandEffect i s (.next ((s.updBank j g).complete codeOk .ok))
  | stores (j : BankIx) (bs : List Byte) (h : bs.length ≤ 128) :
      CommandEffect i s (.next ((s.updBank j fun p => p.store bs).complete codeOk .ok))
  | address (h : i = .setAddress) (h0 : 0 ≤ s.portA) (h1 : s.portA ≤ 255) :
      CommandEffect i s (.next ({ s with laddr := byteOf s.portA }.complete codeOk .ok))
  | receives (j : BankIx) (h : i = .receive (bankField j)) : CommandEffect i s (.next (s.startReceive j))
  | sendFaults (j : BankIx) (g : Packet → Packet) (hi : isSend i = true) (h : KeepsPayload g) (f : FaultName) (info : FaultInfo) :
      CommandEffect i s (.next ((s.updBank j g).complete f.code (.fault f info)))
  | sends (j : BankIx) (g : Packet → Packet) (p : List Byte) (hi : isSend i = true) (h : KeepsPayload g)
      (hs : (g (s.bank j)).src = s.laddr) (hp : (s.bank j).abs.payload = some p) (hl : p.length ≤ 128) :
      CommandEffect i s (txAnswer ((s.updBank j g).loadFrame
        (encodeFrame (g (s.bank j)).dst s.laddr (g (s.bank j)).typ p)))
  | stops (j : BankIx) (h : (s.bank j).pset = true) (hl : 128 < (s.bank j).plen.toNat) :
      CommandEffect i s (.fault .payloadIndex)

theorem CommandEffect.withBank {i : Instr} {k : BitVec 8} {s : State}
    {act : BankIx → Host.Outcome State Fault Refusal} (h : ∀ j, k = bankField j → CommandEffect i s (act j)) :
    CommandEffect i s (withBank k s act) := by
  obtain ⟨j, hk, e⟩ | ⟨-, e⟩ := withBank_cases k s act
  · exact e ▸ h j hk
  · exact e ▸ .ends _ (.fault .illegalCmd .none) rfl

theorem CommandEffect.setHeader (i : Instr) {s : State} (j : BankIx) {put : Byte → Packet → Packet}
    (h : ∀ b, WritesHeader (put b)) : CommandEffect i s (storeCheckedByte s fun b => s.updBank j (put b)) := by
  unfold storeCheckedByte
  split
  · exact .header j _ (h _)
  · exact .ends _ (.fault .range _) rfl

theorem CommandEffect.storePayload (i : Instr) (s : State) (j : BankIx) (bs : List Byte) :
    CommandEffect i s (.next (storePayload j bs s)) := by
  by_cases h : bs.length ≤ 128
  · rw [storePayload_ok j s h]
    exact .stores j bs h
  · rw [storePayload_overflow j s (by omega)]
    exact .ends _ (.fault .overflow _) rfl

theorem CommandEffect.setInteger (i : Instr) (n : Nat) (sg : Sign) (k : BitVec 8) (s : State) :
    CommandEffect i s (setInteger n sg k s) := by
  refine .withBank fun j _ => ?_
  split
  · exact .storePayload i s j _
  · exact .ends _ (.fault .range _) rfl

theorem CommandEffect.getInteger (i : Instr) {n : Nat} (hn : n ≤ 128) (sg : Sign) (k : BitVec 8) (s : State) :
    CommandEffect i s (getInteger n sg k s) := by
  refine .withBank fun j _ => ?_
  rw [Memory.readFirst_some hn]
  split
  · split
    · exact .ends _ (.fault .decode _) rfl
    · exact .ends _ (.okInt _) rfl
  · exact .ends _ (.fault .nodata _) rfl

theorem CommandEffect.readPayload (i : Instr) {s : State} (j : BankIx) {use : List Byte → State}
    (h : ∀ p, CommandEffect i s (.next (use p))) : CommandEffect i s (readPayload j s use) := by
  by_cases hp : (s.bank j).pset = true
  · by_cases hl : (s.bank j).plen.toNat ≤ 128
    · rw [readPayload_set use hp hl]
      exact h _
    · rw [readPayload_stops use hp (by omega)]
      exact .stops j hp (by omega)
  · rw [readPayload_unset use (by simpa using hp)]
    exact .ends _ (.fault .nodata _) rfl

/-- The last part of a SEND, after header overwrites `f` of bank `j`. -/
theorem CommandEffect.sendStamped {i : Instr} (hi : isSend i = true) (s : State) (j : BankIx) {f : Packet → Packet} (hf : KeepsPayload f) :
    CommandEffect i s (sendStamped j (s.updBank j f)) := by
  have hg : KeepsPayload fun p => (f p).putSrc s.laddr := hf
  have hb : (s.updBank j f).bank j = f (s.bank j) := State.bank_updBank_self ..
  by_cases hp : (s.bank j).pset = true
  · by_cases hl : (s.bank j).plen.toNat ≤ 128
    · have hpay : (s.bank j).abs.payload = some ((s.bank j).pay.readN 0 (s.bank j).plen.toNat) :=
        Packet.abs_payload_some.2 ⟨hp, rfl⟩
      have hpay' : ((s.updBank j f).bank j).abs.payload = some ((s.bank j).pay.readN 0 (s.bank j).plen.toNat) := by
        rw [Packet.abs_payload_some, hb, (hf _).1, (hf _).2.1, (hf _).2.2]
        exact ⟨hp, rfl⟩
      have hlen : ((s.bank j).pay.readN 0 (s.bank j).plen.toNat).length ≤ 128 := by rw [Memory.readN_length]; exact hl
      rw [sendStamped_set hpay' hlen, hb, State.updBank_updBank, State.updBank_laddr]
      exact .sends j (fun p => (f p).putSrc s.laddr) _ hi hg rfl hpay hlen
    · rw [sendStamped_stops (by rw [hb, (hf _).1]; exact hp) (by rw [hb, (hf _).2.1]; omega)]
      exact .stops j hp (by omega)
  · rw [sendStamped_unset (by rw [hb, (hf _).1]; simpa using hp), State.updBank_updBank, State.updBank_laddr]
    exact .sendFaults j _ hi hg .nodata .none

theorem State.updBank_id (s : State) (j : BankIx) : s.updBank j (fun p => p) = s := by
  unfold State.updBank State.setBank State.bank
  split <;> rfl

theorem CommandEffect.send {i : Instr} (hi : isSend i = true) (d t : Bool) (k : BitVec 8) (s : State) :
    CommandEffect i s (sendForm d t k s) := by
  refine .withBank fun j _ => ?_
  have hd : ∀ b, KeepsPayload (Packet.putDst b) := fun _ _ => ⟨rfl, rfl, rfl⟩
  have ht : ∀ b, KeepsPayload (Packet.putTyp b) := fun _ _ => ⟨rfl, rfl, rfl⟩
  have h0 : KeepsPayload fun p => p := fun _ => ⟨rfl, rfl, rfl⟩
  have second : ∀ f, KeepsPayload f → CommandEffect i s
      (match overwriteHeader t s.portB Packet.putTyp j (s.updBank j f) with
        | .error e => .next e
        | .ok s2 => Machine.sendStamped j s2) := by
    intro f hf
    cases t with
    | false => exact .sendStamped hi s j hf
    | true =>
      by_cases h : RangeOK s.portB 1 .U
      · rw [overwriteHeader_ok _ _ _ h, State.updBank_updBank]
        exact .sendStamped hi s j fun p => hf p
      · rw [overwriteHeader_range _ _ _ h]
        exact .sendFaults j f hi hf .range _
  cases d with
  | false =>
    have := second _ h0
    rw [State.updBank_id] at this
    exact this
  | true =>
    by_cases h : RangeOK s.portA 1 .U
    · rw [overwriteHeader_ok _ _ _ h]
      exact second _ (hd _)
    · rw [overwriteHeader_range _ _ _ h]
      exact .ends _ (.fault .range _) rfl

/-- An instruction of the receive stream. -/
def onWire : Instr → Bool
  | .frame _ | .frameFalseSyn _ => true
  | _ => false

/-- Everything a command of the command port can do. -/
theorem exec_effect (i : Instr) (s : State) (h : onWire i = false) : CommandEffect i s (exec i s) := by
  have hs : ∀ b, WritesHeader (Packet.putSrc b) := fun b => ⟨b, .inl rfl⟩
  have hd : ∀ b, WritesHeader (Packet.putDst b) := fun b => ⟨b, .inr (.inl rfl)⟩
  have ht : ∀ b, WritesHeader (Packet.putTyp b) := fun b => ⟨b, .inr (.inr rfl)⟩
  cases i with
  | clear k => exact .withBank fun j hk => .clears j (by rw [hk])
  | setSource k => exact .withBank fun j _ => .setHeader _ j hs
  | setDestination k => exact .withBank fun j _ => .setHeader _ j hd
  | setType k => exact .withBank fun j _ => .setHeader _ j ht
  | getSource k =>
    rw [exec_getSource]
    exact .withBank fun j _ => .ends _ (.okByte _) rfl
  | getDestination k =>
    rw [exec_getDestination]
    exact .withBank fun j _ => .ends _ (.okByte _) rfl
  | getType k =>
    rw [exec_getType]
    exact .withBank fun j _ => .ends _ (.okByte _) rfl
  | setData k => exact .withBank fun j _ => .storePayload _ s j _
  | getData k =>
    rw [exec_getData]
    exact .withBank fun j _ => .readPayload _ j fun p => .ends _ (.okBytes _) rfl
  | setString k => exact .withBank fun j _ => .storePayload _ s j _
  | getString k =>
    refine .withBank fun j _ => .readPayload _ j fun p => ?_
    split
    · exact .ends _ (.okBytes _) rfl
    · exact .ends _ (.fault .format _) rfl
  | setAddress =>
    rw [exec_setAddress]
    unfold storeCheckedByte
    split
    · exact .address rfl ((rangeOK_byte _).1 ‹_›).1 ((rangeOK_byte _).1 ‹_›).2
    · exact .ends _ (.fault .range _) rfl
  | getAddress => exact .ends _ (.okByte _) rfl
  | receive k => exact .withBank fun j hk => .receives j (by rw [hk])
  | send k => exact .send rfl false false k s
  | sendT k => exact .send rfl false true k s
  | sendD k => exact .send rfl true false k s
  | sendDT k => exact .send rfl true true k s
  | setInteger1U k => exact .setInteger _ 1 .U k s
  | setInteger2U k => exact .setInteger _ 2 .U k s
  | setInteger4U k => exact .setInteger _ 4 .U k s
  | setInteger8U k => exact .setInteger _ 8 .U k s
  | setInteger1S k => exact .setInteger _ 1 .S k s
  | setInteger2S k => exact .setInteger _ 2 .S k s
  | setInteger4S k => exact .setInteger _ 4 .S k s
  | setInteger8S k => exact .setInteger _ 8 .S k s
  | getInteger1U k => exact .getInteger _ (by decide) .U k s
  | getInteger2U k => exact .getInteger _ (by decide) .U k s
  | getInteger4U k => exact .getInteger _ (by decide) .U k s
  | getInteger8U k => exact .getInteger _ (by decide) .U k s
  | getInteger1S k => exact .getInteger _ (by decide) .S k s
  | getInteger2S k => exact .getInteger _ (by decide) .S k s
  | getInteger4S k => exact .getInteger _ (by decide) .S k s
  | getInteger8S k => exact .getInteger _ (by decide) .S k s
  | reserved00 _ => exact .ends _ (.fault .illegalCmd _) rfl
  | reserved0E _ _ => exact .ends _ (.fault .illegalCmd _) rfl
  | reserved14 _ _ => exact .ends _ (.fault .illegalCmd _) rfl
  | reserved19 _ => exact .ends _ (.fault .illegalCmd _) rfl
  | reserved1A _ _ => exact .ends _ (.fault .illegalCmd _) rfl
  | reserved1C _ _ => exact .ends _ (.fault .illegalCmd _) rfl
  | reserved30 _ _ => exact .ends _ (.fault .illegalCmd _) rfl
  | reserved40 _ _ => exact .ends _ (.fault .illegalCmd _) rfl
  | reserved80 _ _ => exact .ends _ (.fault .illegalCmd _) rfl
  | frame rest => cases h
  | frameFalseSyn ll => cases h

/-- What decodes is a command of the command port, and only the word `0x0C00` is SETADDRESS. -/
theorem decodeOp_facts {op k : BitVec 8} {i : Instr} (h : decodeOp op k = .ok i) :
    onWire i = false ∧ (i = .setAddress → op = 0x0C#8 ∧ k = 0x00#8) := by
  have hr : ∀ op k, onWire (decodeReserved op k) = false ∧ decodeReserved op k ≠ .setAddress := by
    intro op k
    unfold decodeReserved
    repeat' split
    all_goals exact ⟨rfl, fun h => nomatch h⟩
  unfold decodeOp at h
  split at h
  all_goals try (injection h with h; subst h)
  all_goals first
    | exact ⟨rfl, fun h => nomatch h⟩
    | exact ⟨(hr _ _).1, fun h => absurd h (hr _ _).2⟩
    | (split at h
       · rename_i hk
         injection h with h
         subst h
         exact ⟨rfl, fun _ => ⟨rfl, hk⟩⟩
       · exact nomatch h)
    | (split at h
       · injection h with h
         subst h
         exact ⟨rfl, fun h => nomatch h⟩
       · exact nomatch h)

/-- The command decoder never answers with an instruction of the receive stream. -/
theorem decodeCommand_onWire {w : CmdWord} {i : Instr} (h : decodeCommand w = .ok i) : onWire i = false :=
  (decodeOp_facts h).1

/-- A word that decodes to SETADDRESS is the word `0x0C00`. -/
theorem decodeCommand_setAddress {w : CmdWord} (h : decodeCommand w = .ok .setAddress) : w = 0x0C00#16 := by
  obtain ⟨h1, h2⟩ := (decodeOp_facts h).2 rfl
  rw [← cmdWord_fields w, h1, h2]
  rfl

end Sys2Proof.Machine
end

