-- ==== Sys2Proof/Laws/Operands.lean ====
section
/-!
SUPPORT. The laws of the checksum and of the little-endian serializer (rules R130, R131 and R160).
-/

namespace Sys2Proof.Machine

/-! ## The checksum -/

@[simp] theorem chk_nil : chk [] = 0x00#8 := rfl

theorem chk_toNat (bs : List Byte) : (chk bs).toNat = (bs.map BitVec.toNat).sum % 256 :=
  BitVec.toNat_ofNat ..

/-- The checksum of a sequence and one more byte. -/
theorem chk_concat (bs : List Byte) (b : Byte) : chk (bs ++ [b]) = chk bs + b := by
  apply BitVec.eq_of_toNat_eq
  rw [BitVec.toNat_add, chk_toNat, chk_toNat]
  simp [Nat.add_mod]

/-! ## The serializer -/

@[simp] theorem leSer_length (n : Nat) (v : Int) : (leSer n v).length = n := by simp [leSer]

theorem leSer_getElem (n : Nat) (v : Int) {i : Nat} (h : i < (leSer n v).length) :
    (leSer n v)[i] = BitVec.ofNat 8 ((v % 2 ^ (8 * n)).toNat / 2 ^ (8 * i)) := by simp [leSer]

theorem leNat_cons (b : Byte) (bs : List Byte) : leNat (b :: bs) = b.toNat + 256 * leNat bs := rfl

/-- The number a sequence of `n` bytes spells has `8n` bits. -/
theorem leNat_lt (bs : List Byte) : leNat bs < 256 ^ bs.length := by
  induction bs with
  | nil => simp [leNat]
  | cons b bs ih =>
    have := b.isLt
    rw [leNat_cons, List.length_cons, Nat.pow_succ]
    omega

/-- The bytes of a number spell it. -/
theorem leNat_bytes (n x : Nat) :
    leNat ((List.range n).map fun i => BitVec.ofNat 8 (x / 2 ^ (8 * i))) = x % 256 ^ n := by
  induction n generalizing x with
  | zero => simp [leNat, Nat.mod_one]
  | succ n ih =>
    have h : ((List.range n).map ((fun i => BitVec.ofNat 8 (x / 2 ^ (8 * i))) ∘ Nat.succ)) =
        (List.range n).map fun i => BitVec.ofNat 8 (x / 256 / 2 ^ (8 * i)) := by
      refine List.map_congr_left fun i _ => ?_
      simp only [Function.comp, Nat.succ_eq_add_one]
      rw [Nat.div_div_eq_div_mul, Nat.mul_add, Nat.pow_add, Nat.mul_comm]
    rw [List.range_succ_eq_map, List.map_cons, List.map_map, leNat_cons, h, ih, Nat.pow_succ,
      Nat.mul_comm (256 ^ n) 256, Nat.mod_mul]
    simp

/-- The serializer's bytes spell the value modulo `2^(8n)`. -/
theorem leNat_leSer (n : Nat) (v : Int) : (leNat (leSer n v) : Int) = v % 2 ^ (8 * n) := by
  have hp : (0 : Int) < 2 ^ (8 * n) := by positivity
  have h0 := Int.emod_nonneg v hp.ne'
  have h1 := Int.emod_lt_of_pos v hp
  rw [leSer, leNat_bytes]
  have : (256 : Nat) ^ n = 2 ^ (8 * n) := by rw [Nat.pow_mul]
  rw [this, Int.natCast_mod, Int.toNat_of_nonneg h0]
  push_cast
  exact Int.emod_eq_of_lt h0 h1

/-- A sequence is spelt by its number alone. -/
theorem leNat_injective {bs cs : List Byte} (h : bs.length = cs.length) (hn : leNat bs = leNat cs) : bs = cs := by
  induction bs generalizing cs with
  | nil => cases cs with
    | nil => rfl
    | cons c cs => simp at h
  | cons b bs ih => cases cs with
    | nil => simp at h
    | cons c cs =>
      have hb := b.isLt
      have hc := c.isLt
      rw [leNat_cons, leNat_cons] at hn
      have h1 : b = c := BitVec.eq_of_toNat_eq (by omega)
      rw [h1, ih (by simpa using h) (by omega)]

end Sys2Proof.Machine
end

