-- ==== Sys2Proof/Laws/PerInstr.lean ====
section
/-!
SUPPORT. Made per instruction: every instruction is encoded in the row of spec/opcode_table.json that bears its mnemonic;
a pattern of the receive stream is bytes that begin with SYN.
-/

namespace Sys2Proof.Laws

/-- A word whose operation code has a row's fixed bits falls in the row. -/
theorem covers_cmdWord {mn : String} {op k m p : BitVec 8} (h : op &&& m = p) :
    TableRow.covers ⟨mn, cmdWord m 0x00#8, cmdWord p 0x00#8⟩ (cmdWord op k) = true := by
  have e : cmdWord op k &&& cmdWord m 0x00#8 = cmdWord p 0x00#8 := by
    have : (op ++ k : BitVec (8 + 8)) &&& (m ++ 0x00#8) = (op &&& m) ++ (k &&& 0x00#8) := BitVec.and_append
    rw [← h]
    rw [BitVec.and_zero] at this
    exact this
  simp [TableRow.covers, e]

/-- The instruction's word falls in the opcode table's row of its mnemonic; its bytes begin with SYN. -/
def EncodesInItsRow.Statement (i : Instr) : Prop :=
  match encode i with
  | .command w => ∃ r ∈ tableRows, r.mnemonic = i.mnemonic ∧ r.covers w = true
  | .wire bytes => bytes.head? = some 0x02#8 ∧ (i.mnemonic = "FRAME" ∨ i.mnemonic = "FRAME.FALSE_SYN")

/-- A command's statement, from its row and the fixed bits of its operation code. -/
theorem EncodesInItsRow.command {i : Instr} {op k : BitVec 8} (m p : BitVec 8) (h : encode i = .command (cmdWord op k))
    (hr : (⟨i.mnemonic, cmdWord m 0x00#8, cmdWord p 0x00#8⟩ : TableRow) ∈ tableRows) (hp : op &&& m = p) :
    EncodesInItsRow.Statement i := by
  unfold EncodesInItsRow.Statement
  rw [h]
  exact ⟨_, hr, rfl, covers_cmdWord hp⟩

theorem EncodesInItsRow.clear (k : BitVec 8) : EncodesInItsRow.Statement (.clear k) :=
  EncodesInItsRow.command 0xFF#8 0x01#8 rfl
    (show (⟨"CLEAR", cmdWord 0xFF#8 0x00#8, cmdWord 0x01#8 0x00#8⟩ : TableRow) ∈ tableRows by decide)
    rfl

theorem EncodesInItsRow.setSource (k : BitVec 8) : EncodesInItsRow.Statement (.setSource k) :=
  EncodesInItsRow.command 0xFF#8 0x02#8 rfl
    (show (⟨"SETSOURCE", cmdWord 0xFF#8 0x00#8, cmdWord 0x02#8 0x00#8⟩ : TableRow) ∈ tableRows by decide)
    rfl

theorem EncodesInItsRow.setDestination (k : BitVec 8) : EncodesInItsRow.Statement (.setDestination k) :=
  EncodesInItsRow.command 0xFF#8 0x03#8 rfl
    (show (⟨"SETDESTINATION", cmdWord 0xFF#8 0x00#8, cmdWord 0x03#8 0x00#8⟩ : TableRow) ∈ tableRows by decide)
    rfl

theorem EncodesInItsRow.setType (k : BitVec 8) : EncodesInItsRow.Statement (.setType k) :=
  EncodesInItsRow.command 0xFF#8 0x04#8 rfl
    (show (⟨"SETTYPE", cmdWord 0xFF#8 0x00#8, cmdWord 0x04#8 0x00#8⟩ : TableRow) ∈ tableRows by decide)
    rfl

theorem EncodesInItsRow.getSource (k : BitVec 8) : EncodesInItsRow.Statement (.getSource k) :=
  EncodesInItsRow.command 0xFF#8 0x05#8 rfl
    (show (⟨"GETSOURCE", cmdWord 0xFF#8 0x00#8, cmdWord 0x05#8 0x00#8⟩ : TableRow) ∈ tableRows by decide)
    rfl

theorem EncodesInItsRow.getDestination (k : BitVec 8) : EncodesInItsRow.Statement (.getDestination k) :=
  EncodesInItsRow.command 0xFF#8 0x06#8 rfl
    (show (⟨"GETDESTINATION", cmdWord 0xFF#8 0x00#8, cmdWord 0x06#8 0x00#8⟩ : TableRow) ∈ tableRows by decide)
    rfl

theorem EncodesInItsRow.getType (k : BitVec 8) : EncodesInItsRow.Statement (.getType k) :=
  EncodesInItsRow.command 0xFF#8 0x07#8 rfl
    (show (⟨"GETTYPE", cmdWord 0xFF#8 0x00#8, cmdWord 0x07#8 0x00#8⟩ : TableRow) ∈ tableRows by decide)
    rfl

theorem EncodesInItsRow.setData (k : BitVec 8) : EncodesInItsRow.Statement (.setData k) :=
  EncodesInItsRow.command 0xFF#8 0x08#8 rfl
    (show (⟨"SETDATA", cmdWord 0xFF#8 0x00#8, cmdWord 0x08#8 0x00#8⟩ : TableRow) ∈ tableRows by decide)
    rfl

theorem EncodesInItsRow.getData (k : BitVec 8) : EncodesInItsRow.Statement (.getData k) :=
  EncodesInItsRow.command 0xFF#8 0x09#8 rfl
    (show (⟨"GETDATA", cmdWord 0xFF#8 0x00#8, cmdWord 0x09#8 0x00#8⟩ : TableRow) ∈ tableRows by decide)
    rfl

theorem EncodesInItsRow.setString (k : BitVec 8) : EncodesInItsRow.Statement (.setString k) :=
  EncodesInItsRow.command 0xFF#8 0x0A#8 rfl
    (show (⟨"SETSTRING", cmdWord 0xFF#8 0x00#8, cmdWord 0x0A#8 0x00#8⟩ : TableRow) ∈ tableRows by decide)
    rfl

theorem EncodesInItsRow.getString (k : BitVec 8) : EncodesInItsRow.Statement (.getString k) :=
  EncodesInItsRow.command 0xFF#8 0x0B#8 rfl
    (show (⟨"GETSTRING", cmdWord 0xFF#8 0x00#8, cmdWord 0x0B#8 0x00#8⟩ : TableRow) ∈ tableRows by decide)
    rfl

theorem EncodesInItsRow.setAddress : EncodesInItsRow.Statement .setAddress :=
  ⟨⟨"SETADDRESS", 0xFFFF#16, 0x0C00#16⟩, by decide, rfl, rfl⟩

theorem EncodesInItsRow.getAddress : EncodesInItsRow.Statement .getAddress :=
  ⟨⟨"GETADDRESS", 0xFFFF#16, 0x0D00#16⟩, by decide, rfl, rfl⟩

theorem EncodesInItsRow.send (k : BitVec 8) : EncodesInItsRow.Statement (.send k) :=
  EncodesInItsRow.command 0xFF#8 0x10#8 rfl
    (show (⟨"SEND", cmdWord 0xFF#8 0x00#8, cmdWord 0x10#8 0x00#8⟩ : TableRow) ∈ tableRows by decide)
    rfl

theorem EncodesInItsRow.sendT (k : BitVec 8) : EncodesInItsRow.Statement (.sendT k) :=
  EncodesInItsRow.command 0xFF#8 0x11#8 rfl
    (show (⟨"SEND.T", cmdWord 0xFF#8 0x00#8, cmdWord 0x11#8 0x00#8⟩ : TableRow) ∈ tableRows by decide)
    rfl

theorem EncodesInItsRow.sendD (k : BitVec 8) : EncodesInItsRow.Statement (.sendD k) :=
  EncodesInItsRow.command 0xFF#8 0x12#8 rfl
    (show (⟨"SEND.D", cmdWord 0xFF#8 0x00#8, cmdWord 0x12#8 0x00#8⟩ : TableRow) ∈ tableRows by decide)
    rfl

theorem EncodesInItsRow.sendDT (k : BitVec 8) : EncodesInItsRow.Statement (.sendDT k) :=
  EncodesInItsRow.command 0xFF#8 0x13#8 rfl
    (show (⟨"SEND.DT", cmdWord 0xFF#8 0x00#8, cmdWord 0x13#8 0x00#8⟩ : TableRow) ∈ tableRows by decide)
    rfl

theorem EncodesInItsRow.receive (k : BitVec 8) : EncodesInItsRow.Statement (.receive k) :=
  EncodesInItsRow.command 0xFF#8 0x18#8 rfl
    (show (⟨"RECEIVE", cmdWord 0xFF#8 0x00#8, cmdWord 0x18#8 0x00#8⟩ : TableRow) ∈ tableRows by decide)
    rfl

theorem EncodesInItsRow.setInteger1U (k : BitVec 8) : EncodesInItsRow.Statement (.setInteger1U k) :=
  EncodesInItsRow.command 0xFF#8 0x20#8 rfl
    (show (⟨"SETINTEGER.1.U", cmdWord 0xFF#8 0x00#8, cmdWord 0x20#8 0x00#8⟩ : TableRow) ∈ tableRows by decide)
    rfl

theorem EncodesInItsRow.setInteger2U (k : BitVec 8) : EncodesInItsRow.Statement (.setInteger2U k) :=
  EncodesInItsRow.command 0xFF#8 0x21#8 rfl
    (show (⟨"SETINTEGER.2.U", cmdWord 0xFF#8 0x00#8, cmdWord 0x21#8 0x00#8⟩ : TableRow) ∈ tableRows by decide)
    rfl

theorem EncodesInItsRow.setInteger4U (k : BitVec 8) : EncodesInItsRow.Statement (.setInteger4U k) :=
  EncodesInItsRow.command 0xFF#8 0x22#8 rfl
    (show (⟨"SETINTEGER.4.U", cmdWord 0xFF#8 0x00#8, cmdWord 0x22#8 0x00#8⟩ : TableRow) ∈ tableRows by decide)
    rfl

theorem EncodesInItsRow.setInteger8U (k : BitVec 8) : EncodesInItsRow.Statement (.setInteger8U k) :=
  EncodesInItsRow.command 0xFF#8 0x23#8 rfl
    (show (⟨"SETINTEGER.8.U", cmdWord 0xFF#8 0x00#8, cmdWord 0x23#8 0x00#8⟩ : TableRow) ∈ tableRows by decide)
    rfl

theorem EncodesInItsRow.setInteger1S (k : BitVec 8) : EncodesInItsRow.Statement (.setInteger1S k) :=
  EncodesInItsRow.command 0xFF#8 0x24#8 rfl
    (show (⟨"SETINTEGER.1.S", cmdWord 0xFF#8 0x00#8, cmdWord 0x24#8 0x00#8⟩ : TableRow) ∈ tableRows by decide)
    rfl

theorem EncodesInItsRow.setInteger2S (k : BitVec 8) : EncodesInItsRow.Statement (.setInteger2S k) :=
  EncodesInItsRow.command 0xFF#8 0x25#8 rfl
    (show (⟨"SETINTEGER.2.S", cmdWord 0xFF#8 0x00#8, cmdWord 0x25#8 0x00#8⟩ : TableRow) ∈ tableRows by decide)
    rfl

theorem EncodesInItsRow.setInteger4S (k : BitVec 8) : EncodesInItsRow.Statement (.setInteger4S k) :=
  EncodesInItsRow.command 0xFF#8 0x26#8 rfl
    (show (⟨"SETINTEGER.4.S", cmdWord 0xFF#8 0x00#8, cmdWord 0x26#8 0x00#8⟩ : TableRow) ∈ tableRows by decide)
    rfl

theorem EncodesInItsRow.setInteger8S (k : BitVec 8) : EncodesInItsRow.Statement (.setInteger8S k) :=
  EncodesInItsRow.command 0xFF#8 0x27#8 rfl
    (show (⟨"SETINTEGER.8.S", cmdWord 0xFF#8 0x00#8, cmdWord 0x27#8 0x00#8⟩ : TableRow) ∈ tableRows by decide)
    rfl

theorem EncodesInItsRow.getInteger1U (k : BitVec 8) : EncodesInItsRow.Statement (.getInteger1U k) :=
  EncodesInItsRow.command 0xFF#8 0x28#8 rfl
    (show (⟨"GETINTEGER.1.U", cmdWord 0xFF#8 0x00#8, cmdWord 0x28#8 0x00#8⟩ : TableRow) ∈ tableRows by decide)
    rfl

theorem EncodesInItsRow.getInteger2U (k : BitVec 8) : EncodesInItsRow.Statement (.getInteger2U k) :=
  EncodesInItsRow.command 0xFF#8 0x29#8 rfl
    (show (⟨"GETINTEGER.2.U", cmdWord 0xFF#8 0x00#8, cmdWord 0x29#8 0x00#8⟩ : TableRow) ∈ tableRows by decide)
    rfl

theorem EncodesInItsRow.getInteger4U (k : BitVec 8) : EncodesInItsRow.Statement (.getInteger4U k) :=
  EncodesInItsRow.command 0xFF#8 0x2A#8 rfl
    (show (⟨"GETINTEGER.4.U", cmdWord 0xFF#8 0x00#8, cmdWord 0x2A#8 0x00#8⟩ : TableRow) ∈ tableRows by decide)
    rfl

theorem EncodesInItsRow.getInteger8U (k : BitVec 8) : EncodesInItsRow.Statement (.getInteger8U k) :=
  EncodesInItsRow.command 0xFF#8 0x2B#8 rfl
    (show (⟨"GETINTEGER.8.U", cmdWord 0xFF#8 0x00#8, cmdWord 0x2B#8 0x00#8⟩ : TableRow) ∈ tableRows by decide)
    rfl

theorem EncodesInItsRow.getInteger1S (k : BitVec 8) : EncodesInItsRow.Statement (.getInteger1S k) :=
  EncodesInItsRow.command 0xFF#8 0x2C#8 rfl
    (show (⟨"GETINTEGER.1.S", cmdWord 0xFF#8 0x00#8, cmdWord 0x2C#8 0x00#8⟩ : TableRow) ∈ tableRows by decide)
    rfl

theorem EncodesInItsRow.getInteger2S (k : BitVec 8) : EncodesInItsRow.Statement (.getInteger2S k) :=
  EncodesInItsRow.command 0xFF#8 0x2D#8 rfl
    (show (⟨"GETINTEGER.2.S", cmdWord 0xFF#8 0x00#8, cmdWord 0x2D#8 0x00#8⟩ : TableRow) ∈ tableRows by decide)
    rfl

theorem EncodesInItsRow.getInteger4S (k : BitVec 8) : EncodesInItsRow.Statement (.getInteger4S k) :=
  EncodesInItsRow.command 0xFF#8 0x2E#8 rfl
    (show (⟨"GETINTEGER.4.S", cmdWord 0xFF#8 0x00#8, cmdWord 0x2E#8 0x00#8⟩ : TableRow) ∈ tableRows by decide)
    rfl

theorem EncodesInItsRow.getInteger8S (k : BitVec 8) : EncodesInItsRow.Statement (.getInteger8S k) :=
  EncodesInItsRow.command 0xFF#8 0x2F#8 rfl
    (show (⟨"GETINTEGER.8.S", cmdWord 0xFF#8 0x00#8, cmdWord 0x2F#8 0x00#8⟩ : TableRow) ∈ tableRows by decide)
    rfl

theorem EncodesInItsRow.reserved00 (k : BitVec 8) : EncodesInItsRow.Statement (.reserved00 k) :=
  EncodesInItsRow.command 0xFF#8 0x00#8 rfl
    (show (⟨"RESERVED.0x00", cmdWord 0xFF#8 0x00#8, cmdWord 0x00#8 0x00#8⟩ : TableRow) ∈ tableRows by decide)
    rfl

theorem EncodesInItsRow.reserved0E (x : BitVec 1) (k : BitVec 8) : EncodesInItsRow.Statement (.reserved0E x k) :=
  EncodesInItsRow.command 0xFE#8 0x0E#8 rfl
    (show (⟨"RESERVED.0x0E-0x0F", cmdWord 0xFE#8 0x00#8, cmdWord 0x0E#8 0x00#8⟩ : TableRow) ∈ tableRows by decide)
    (by revert x; decide)

theorem EncodesInItsRow.reserved14 (x : BitVec 2) (k : BitVec 8) : EncodesInItsRow.Statement (.reserved14 x k) :=
  EncodesInItsRow.command 0xFC#8 0x14#8 rfl
    (show (⟨"RESERVED.0x14-0x17", cmdWord 0xFC#8 0x00#8, cmdWord 0x14#8 0x00#8⟩ : TableRow) ∈ tableRows by decide)
    (by revert x; decide)

theorem EncodesInItsRow.reserved19 (k : BitVec 8) : EncodesInItsRow.Statement (.reserved19 k) :=
  EncodesInItsRow.command 0xFF#8 0x19#8 rfl
    (show (⟨"RESERVED.0x19", cmdWord 0xFF#8 0x00#8, cmdWord 0x19#8 0x00#8⟩ : TableRow) ∈ tableRows by decide)
    rfl

theorem EncodesInItsRow.reserved1A (x : BitVec 1) (k : BitVec 8) : EncodesInItsRow.Statement (.reserved1A x k) :=
  EncodesInItsRow.command 0xFE#8 0x1A#8 rfl
    (show (⟨"RESERVED.0x1A-0x1B", cmdWord 0xFE#8 0x00#8, cmdWord 0x1A#8 0x00#8⟩ : TableRow) ∈ tableRows by decide)
    (by revert x; decide)

theorem EncodesInItsRow.reserved1C (x : BitVec 2) (k : BitVec 8) : EncodesInItsRow.Statement (.reserved1C x k) :=
  EncodesInItsRow.command 0xFC#8 0x1C#8 rfl
    (show (⟨"RESERVED.0x1C-0x1F", cmdWord 0xFC#8 0x00#8, cmdWord 0x1C#8 0x00#8⟩ : TableRow) ∈ tableRows by decide)
    (by revert x; decide)

theorem EncodesInItsRow.reserved30 (x : BitVec 4) (k : BitVec 8) : EncodesInItsRow.Statement (.reserved30 x k) :=
  EncodesInItsRow.command 0xF0#8 0x30#8 rfl
    (show (⟨"RESERVED.0x30-0x3F", cmdWord 0xF0#8 0x00#8, cmdWord 0x30#8 0x00#8⟩ : TableRow) ∈ tableRows by decide)
    (by revert x; decide)

theorem EncodesInItsRow.reserved40 (x : BitVec 6) (k : BitVec 8) : EncodesInItsRow.Statement (.reserved40 x k) :=
  EncodesInItsRow.command 0xC0#8 0x40#8 rfl
    (show (⟨"RESERVED.0x40-0x7F", cmdWord 0xC0#8 0x00#8, cmdWord 0x40#8 0x00#8⟩ : TableRow) ∈ tableRows by decide)
    (by revert x; decide)

theorem EncodesInItsRow.reserved80 (x : BitVec 7) (k : BitVec 8) : EncodesInItsRow.Statement (.reserved80 x k) :=
  EncodesInItsRow.command 0x80#8 0x80#8 rfl
    (show (⟨"RESERVED.0x80-0xFF", cmdWord 0x80#8 0x00#8, cmdWord 0x80#8 0x00#8⟩ : TableRow) ∈ tableRows by decide)
    (by revert x; decide)

theorem EncodesInItsRow.frame (rest : List Byte) : EncodesInItsRow.Statement (.frame rest) := ⟨rfl, .inl rfl⟩

theorem EncodesInItsRow.frameFalseSyn (ll : BitVec 2) : EncodesInItsRow.Statement (.frameFalseSyn ll) := ⟨rfl, .inr rfl⟩

end Sys2Proof.Laws
end

