-- ==== Sys2Proof/Laws/Receive.lean ====
section
/-!
SUPPORT. The receive path: each transition in the case it belongs to, the effect of a run of body bytes, the steps of the
machine while a RECEIVE is in progress, and the equations of the big-step function `recv`.
-/

namespace Sys2Proof.Machine

/-! ## The transitions -/

theorem rxByte_idle {s : State} (b : Byte) (h : s.rxs = .idle) : rxByte b s = s := by simp [rxByte, h]

theorem rxByte_noise {s : State} {b : Byte} (h : s.rxs = .seekSyn) (hb : b ≠ Config.SYN) : rxByte b s = s := by
  simp only [rxByte, h, seekByte, if_neg hb]
  rw [← h]

theorem rxByte_syn {s : State} (h : s.rxs = .seekSyn) : rxByte Config.SYN s = { s with rxs := .readLen } := by
  simp [rxByte, h, seekByte]

theorem rxByte_falseSyn {s : State} {len : Byte} (h : s.rxs = .readLen) (hl : len.toNat < 4) :
    rxByte len s = { s with rxs := .seekSyn } := by
  simp [rxByte, h, lenByteTaken, hl]

theorem rxByte_len {s : State} {len : Byte} (h : s.rxs = .readLen) (hl : 4 ≤ len.toNat) :
    rxByte len s = { s with rxs := .readBody, rxlen := len, rxcnt := 0x00#8, rxsum := 0x00#8 } := by
  simp only [rxByte, h, lenByteTaken]
  exact if_neg (show ¬ len.toNat < 4 by omega)

theorem rxByte_body {s : State} (b : Byte) (h : s.rxs = .readBody) (hc : s.rxcnt.toNat < s.rxlen.toNat - 1) :
    rxByte b s = bodyByte b s := by
  simp [rxByte, h, hc]

theorem rxByte_mismatch {s : State} {c : Byte} (h : s.rxs = .readBody) (hc : s.rxcnt.toNat = s.rxlen.toNat - 1)
    (hs : c ≠ s.rxsum) : rxByte c s = { s with rxs := .seekSyn } := by
  simp [rxByte, h, hc, checksumByte, hs]

theorem rxByte_verified {s : State} (h : s.rxs = .readBody) (hc : s.rxcnt.toNat = s.rxlen.toNat - 1)
    (hl : s.rxlen.toNat ≤ 132) : rxByte s.rxsum s =
      (s.updBank s.rxk fun p => p.materialize s.rxbuf (payloadLength s.rxlen)).finish .ok := by
  simp [rxByte, h, hc, checksumByte, hl]

theorem rxByte_oversize {s : State} (h : s.rxs = .readBody) (hc : s.rxcnt.toNat = s.rxlen.toNat - 1)
    (hl : 132 < s.rxlen.toNat) : rxByte s.rxsum s = s.raiseOverflow := by
  simp [rxByte, h, hc, checksumByte, hl]

/-- An end of stream in any state of a RECEIVE. -/
theorem rxEvent_eof {s : State} (h : s.rxs ≠ .idle) : ∃ c, rxEvent .eof s = s.noPacket c ∧
    c ∈ [codeEofSeek, codeEofLen, codeEofBody] := by
  cases hr : s.rxs with
  | idle => exact absurd hr h
  | seekSyn => exact ⟨codeEofSeek, by simp [rxEvent, rxEof, hr], by simp⟩
  | readLen => exact ⟨codeEofLen, by simp [rxEvent, rxEof, hr], by simp⟩
  | readBody => exact ⟨codeEofBody, by simp [rxEvent, rxEof, hr], by simp⟩

/-- A transport failure in any state of a RECEIVE. -/
theorem rxEvent_ioerr {s : State} (h : s.rxs ≠ .idle) : rxEvent .ioerr s = s.noPacket codeIoerr := by
  cases hr : s.rxs <;> simp_all [rxEvent, rxIoerr]

@[simp] theorem rxEvent_byte (b : Byte) (s : State) : rxEvent (.byte b) s = rxByte b s := rfl

/-! ## What no transition changes -/

@[simp] theorem checksumByte_laddr (c : Byte) (s : State) : (checksumByte c s).laddr = s.laddr := by
  unfold checksumByte; split
  · rfl
  · split <;> simp [State.raiseOverflow]

@[simp] theorem checksumByte_rxk (c : Byte) (s : State) : (checksumByte c s).rxk = s.rxk := by
  unfold checksumByte; split
  · rfl
  · split <;> simp [State.raiseOverflow]

@[simp] theorem checksumByte_txbuf (c : Byte) (s : State) : (checksumByte c s).txbuf = s.txbuf := by
  unfold checksumByte; split
  · rfl
  · split <;> simp [State.raiseOverflow]

@[simp] theorem checksumByte_txn (c : Byte) (s : State) : (checksumByte c s).txn = s.txn := by
  unfold checksumByte; split
  · rfl
  · split <;> simp [State.raiseOverflow]
@[simp] theorem checksumByte_txpos (c : Byte) (s : State) : (checksumByte c s).txpos = s.txpos := by
  unfold checksumByte; split
  · rfl
  · split <;> simp [State.raiseOverflow]

@[simp] theorem checksumByte_portA (c : Byte) (s : State) : (checksumByte c s).portA = s.portA := by
  unfold checksumByte; split
  · rfl
  · split <;> simp [State.raiseOverflow]

@[simp] theorem checksumByte_portB (c : Byte) (s : State) : (checksumByte c s).portB = s.portB := by
  unfold checksumByte; split
  · rfl
  · split <;> simp [State.raiseOverflow]

@[simp] theorem checksumByte_portData (c : Byte) (s : State) : (checksumByte c s).portData = s.portData := by
  unfold checksumByte; split
  · rfl
  · split <;> simp [State.raiseOverflow]

@[simp] theorem checksumByte_cmds (c : Byte) (s : State) : (checksumByte c s).cmds = s.cmds := by
  unfold checksumByte; split
  · rfl
  · split <;> simp [State.raiseOverflow]

@[simp] theorem checksumByte_rx (c : Byte) (s : State) : (checksumByte c s).rx = s.rx := by
  unfold checksumByte; split
  · rfl
  · split <;> simp [State.raiseOverflow]

@[simp] theorem checksumByte_tx (c : Byte) (s : State) : (checksumByte c s).tx = s.tx := by
  unfold checksumByte; split
  · rfl
  · split <;> simp [State.raiseOverflow]

@[simp] theorem checksumByte_txAns (c : Byte) (s : State) : (checksumByte c s).txAns = s.txAns := by
  unfold checksumByte; split
  · rfl
  · split <;> simp [State.raiseOverflow]

@[simp] theorem checksumByte_resetLine (c : Byte) (s : State) : (checksumByte c s).resetLine = s.resetLine := by
  unfold checksumByte; split
  · rfl
  · split <;> simp [State.raiseOverflow]

@[simp] theorem rxByte_laddr (b : Byte) (s : State) : (rxByte b s).laddr = s.laddr := by
  unfold rxByte seekByte lenByteTaken; repeat' split
  all_goals first | rfl | exact checksumByte_laddr b s

@[simp] theorem rxByte_rxk (b : Byte) (s : State) : (rxByte b s).rxk = s.rxk := by
  unfold rxByte seekByte lenByteTaken; repeat' split
  all_goals first | rfl | exact checksumByte_rxk b s

@[simp] theorem rxByte_txbuf (b : Byte) (s : State) : (rxByte b s).txbuf = s.txbuf := by
  unfold rxByte seekByte lenByteTaken; repeat' split
  all_goals first | rfl | exact checksumByte_txbuf b s

@[simp] theorem rxByte_txn (b : Byte) (s : State) : (rxByte b s).txn = s.txn := by
  unfold rxByte seekByte lenByteTaken; repeat' split
  all_goals first | rfl | exact checksumByte_txn b s
@[simp] theorem rxByte_txpos (b : Byte) (s : State) : (rxByte b s).txpos = s.txpos := by
  unfold rxByte seekByte lenByteTaken; repeat' split
  all_goals first | rfl | exact checksumByte_txpos b s

@[simp] theorem rxByte_portA (b : Byte) (s : State) : (rxByte b s).portA = s.portA := by
  unfold rxByte seekByte lenByteTaken; repeat' split
  all_goals first | rfl | exact checksumByte_portA b s

@[simp] theorem rxByte_portB (b : Byte) (s : State) : (rxByte b s).portB = s.portB := by
  unfold rxByte seekByte lenByteTaken; repeat' split
  all_goals first | rfl | exact checksumByte_portB b s

@[simp] theorem rxByte_portData (b : Byte) (s : State) : (rxByte b s).portData = s.portData := by
  unfold rxByte seekByte lenByteTaken; repeat' split
  all_goals first | rfl | exact checksumByte_portData b s

@[simp] theorem rxByte_cmds (b : Byte) (s : State) : (rxByte b s).cmds = s.cmds := by
  unfold rxByte seekByte lenByteTaken; repeat' split
  all_goals first | rfl | exact checksumByte_cmds b s

@[simp] theorem rxByte_rx (b : Byte) (s : State) : (rxByte b s).rx = s.rx := by
  unfold rxByte seekByte lenByteTaken; repeat' split
  all_goals first | rfl | exact checksumByte_rx b s

@[simp] theorem rxByte_tx (b : Byte) (s : State) : (rxByte b s).tx = s.tx := by
  unfold rxByte seekByte lenByteTaken; repeat' split
  all_goals first | rfl | exact checksumByte_tx b s

@[simp] theorem rxByte_txAns (b : Byte) (s : State) : (rxByte b s).txAns = s.txAns := by
  unfold rxByte seekByte lenByteTaken; repeat' split
  all_goals first | rfl | exact checksumByte_txAns b s

@[simp] theorem rxByte_resetLine (b : Byte) (s : State) : (rxByte b s).resetLine = s.resetLine := by
  unfold rxByte seekByte lenByteTaken; repeat' split
  all_goals first | rfl | exact checksumByte_resetLine b s

/-- A byte taken while no SEND is in progress leaves it so. -/
theorem rxByte_txs {s : State} (b : Byte) (h : s.txs = .idle) : (rxByte b s).txs = .idle := by
  unfold rxByte seekByte lenByteTaken checksumByte
  repeat' split
  all_goals first | exact h | rfl

/-! ## Delivering bytes -/

@[simp] theorem deliver_nil (s : State) : deliver [] s = s := rfl

theorem deliver_idle {s : State} (bs : List Byte) (h : s.rxs = .idle) :
    deliver bs s = { s with rx := bs.map RxEvent.byte ++ s.rx } := by
  cases bs with
  | nil => rfl
  | cons b bs => simp only [deliver, h]

theorem deliver_cons {s : State} (b : Byte) (bs : List Byte) (h : s.rxs ≠ .idle) :
    deliver (b :: bs) s = deliver bs (rxByte b s) := by
  cases hx : s.rxs <;> simp_all [deliver]

/-- The state after a run of body bytes none of which is the last. -/
def bodyRun : List Byte → State → State
  | [], s => s
  | b :: bs, s => bodyRun bs (bodyByte b s)

/-- While the body is incomplete, the bytes are taken one by one. -/
theorem deliver_append_body (bs more : List Byte) {s : State} (h : s.rxs = .readBody)
    (hc : s.rxcnt.toNat + bs.length < s.rxlen.toNat) : deliver (bs ++ more) s = deliver more (bodyRun bs s) := by
  induction bs generalizing s with
  | nil => rfl
  | cons b bs ih =>
    have := s.rxlen.isLt
    rw [List.length_cons] at hc
    rw [List.cons_append, deliver_cons b _ (by simp [h]), rxByte_body b h (by omega)]
    refine ih rfl ?_
    simp only [bodyByte_rxcnt, bodyByte_rxlen, BitVec.toNat_add]
    simp only [BitVec.reduceToNat]
    omega

theorem bodyRun_rxs (bs : List Byte) {s : State} (h : s.rxs = .readBody) : (bodyRun bs s).rxs = .readBody := by
  induction bs generalizing s with
  | nil => exact h
  | cons b bs ih => exact ih rfl

/-- A run of body bytes changes `RXCNT`, `RXSUM` and `RXBUF` only. -/
theorem bodyRun_frame (bs : List Byte) {s : State} (h : s.rxs = .readBody) :
    bodyRun bs s = { s with rxcnt := (bodyRun bs s).rxcnt, rxsum := (bodyRun bs s).rxsum,
                            rxbuf := (bodyRun bs s).rxbuf } := by
  induction bs generalizing s with
  | nil => rfl
  | cons b bs ih =>
    have hb : bodyRun (b :: bs) s = bodyRun bs (bodyByte b s) := rfl
    rw [hb]
    conv_lhs => rw [ih (s := bodyByte b s) rfl]
    simp [bodyByte, h]

@[simp] theorem bodyRun_rxlen (bs : List Byte) (s : State) : (bodyRun bs s).rxlen = s.rxlen := by
  induction bs generalizing s with
  | nil => rfl
  | cons b bs ih => exact ih _

theorem bodyRun_rxcnt (bs : List Byte) {s : State} (h : s.rxcnt.toNat + bs.length < 256) :
    (bodyRun bs s).rxcnt.toNat = s.rxcnt.toNat + bs.length := by
  induction bs generalizing s with
  | nil => rfl
  | cons b bs ih =>
    rw [List.length_cons] at h ⊢
    have hb : (bodyByte b s).rxcnt.toNat = s.rxcnt.toNat + 1 := by
      simp only [bodyByte_rxcnt, BitVec.toNat_add, BitVec.reduceToNat]
      omega
    rw [show bodyRun (b :: bs) s = bodyRun bs (bodyByte b s) from rfl, ih (by omega), hb]
    omega

/-- `RXSUM` follows the checksum of the body bytes taken. -/
theorem bodyRun_rxsum (bs pre : List Byte) {s : State} (h : s.rxsum = chk pre) :
    (bodyRun bs s).rxsum = chk (pre ++ bs) := by
  induction bs generalizing s pre with
  | nil => rw [List.append_nil]; exact h
  | cons b bs ih =>
    rw [show bodyRun (b :: bs) s = bodyRun bs (bodyByte b s) from rfl,
      ih (pre ++ [b]) (by rw [chk_concat, bodyByte_rxsum, h])]
    simp

theorem bodyByte_keeps_wf {s : State} (b : Byte) (h : s.rxbuf.wf 131 = true) : (bodyByte b s).rxbuf.wf 131 = true := by
  rw [bodyByte_rxbuf]
  split
  · exact Memory.write_keeps_wf h b ‹_›
  · exact h

theorem bodyRun_keeps_wf (bs : List Byte) {s : State} (h : s.rxbuf.wf 131 = true) :
    (bodyRun bs s).rxbuf.wf 131 = true := by
  induction bs generalizing s with
  | nil => exact h
  | cons b bs ih => exact ih (bodyByte_keeps_wf b h)

theorem bodyByte_read_self {s : State} (b : Byte) (h : s.rxbuf.wf 131 = true) (hc : s.rxcnt.toNat < 131) :
    (bodyByte b s).rxbuf.read s.rxcnt.toNat = b := by
  rw [bodyByte_rxbuf, if_pos hc, Memory.read_write_self (Memory.wf_iff.1 h).1]

theorem bodyByte_read_ne {s : State} (b : Byte) {i : Nat} (h : i ≠ s.rxcnt.toNat ∨ 131 ≤ s.rxcnt.toNat) :
    (bodyByte b s).rxbuf.read i = s.rxbuf.read i := by
  rw [bodyByte_rxbuf]
  split
  · have : s.rxcnt.toNat < 131 := ‹_›
    exact Memory.read_write_ne _ _ (by omega)
  · rfl

/-- A run of body bytes leaves the bytes staged before it alone. -/
theorem bodyRun_read_below (bs : List Byte) {s : State} {i : Nat} (hi : i < s.rxcnt.toNat)
    (h : s.rxcnt.toNat + bs.length < 256) : (bodyRun bs s).rxbuf.read i = s.rxbuf.read i := by
  induction bs generalizing s with
  | nil => rfl
  | cons b bs ih =>
    rw [List.length_cons] at h
    have hb : (bodyByte b s).rxcnt.toNat = s.rxcnt.toNat + 1 := by
      simp only [bodyByte_rxcnt, BitVec.toNat_add, BitVec.reduceToNat]
      omega
    rw [show bodyRun (b :: bs) s = bodyRun bs (bodyByte b s) from rfl, ih (by omega) (by omega),
      bodyByte_read_ne b (Or.inl (by omega))]

/-- `RXBUF` holds the body bytes taken, those that it has room for. -/
theorem bodyRun_read (bs : List Byte) {s : State} (hw : s.rxbuf.wf 131 = true) (h : s.rxcnt.toNat + bs.length < 256)
    {i : Nat} (hi : i < bs.length) (hr : s.rxcnt.toNat + i < 131) :
    (bodyRun bs s).rxbuf.read (s.rxcnt.toNat + i) = bs[i] := by
  induction bs generalizing s i with
  | nil => simp at hi
  | cons b bs ih =>
    rw [List.length_cons] at h hi
    have hb : (bodyByte b s).rxcnt.toNat = s.rxcnt.toNat + 1 := by
      simp only [bodyByte_rxcnt, BitVec.toNat_add, BitVec.reduceToNat]
      omega
    rw [show bodyRun (b :: bs) s = bodyRun bs (bodyByte b s) from rfl]
    cases i with
    | zero =>
      rw [Nat.add_zero, bodyRun_read_below bs (by omega) (by omega)]
      exact bodyByte_read_self b hw (by omega)
    | succ i =>
      have := ih (s := bodyByte b s) (bodyByte_keeps_wf b hw) (by omega) (i := i) (by omega) (by omega)
      rw [List.getElem_cons_succ, ← this, hb]
      congr 1
      omega

/-! ## Steps while a RECEIVE is in progress -/

/-- One step takes one answer of the receive transport. -/
theorem step_receive {s : State} {e : RxEvent} {rest : List RxEvent} (hn : NoReset s) (ht : s.txs = .idle)
    (hr : s.rxs ≠ .idle) (hx : s.rx = e :: rest) : step s = .next (rxEvent e (s.tick.rxTaken rest)) := by
  rw [step_noReset hn, advance_receive (s := s.tick) ht hr, rxRead_cons (s := s.tick) hx]

theorem noReset_of_nil {s : State} (h : s.resetLine = []) : NoReset s := by simp [NoReset, h]

theorem tick_of_nil {s : State} (h : s.resetLine = []) : s.tick = s := by
  show { s with resetLine := s.resetLine.tail } = s
  rw [h, List.tail_nil, ← h]

theorem run_zero (s : State) : core.run 0 s = .next s := rfl

/-- Everything a run of one step and more can do. -/
theorem run_unfold (M : Host.Core) (n : Nat) (s : M.State) : M.run (n + 1) s =
    match M.step s with
    | .next t => M.run n t
    | .fault f => .fault f
    | .refused r => .refused r := by
  cases h : M.step s <;> simp only [Host.Core.run, h]

theorem run_succ {s t : State} (n : Nat) (h : step s = .next t) : core.run (n + 1) s = core.run n t := by
  have h' : core.step s = .next t := h
  have e := run_unfold core n s
  rw [h'] at e
  exact e

/-- A run goes on from where a first part of it ended. -/
theorem run_add {s t : State} (n m : Nat) (h : core.run n s = .next t) : core.run (n + m) s = core.run m t := by
  induction n generalizing s with
  | zero =>
    cases h
    rw [Nat.zero_add]
  | succ n ih =>
    rw [Nat.add_right_comm]
    have e := run_unfold core n s
    rw [h] at e
    cases hs : step s with
    | next u =>
      have hs' : core.step s = .next u := hs
      rw [hs'] at e
      rw [run_succ _ hs]
      exact ih e.symm
    | fault r =>
      have hs' : core.step s = .fault r := hs
      rw [hs'] at e
      cases e
    | refused r =>
      have hs' : core.step s = .refused r := hs
      rw [hs'] at e
      cases e

/-! ## The equations of Recv -/

/-- More fuel than the input is long changes nothing. -/
theorem recvFuel_enough (n : Nat) (r : List Byte) (h : r.length < n) : recvFuel n r = recvFuel (r.length + 1) r := by
  induction n using Nat.strongRecOn generalizing r with
  | ind n ih =>
    have same : ∀ m r', r'.length < r.length → r'.length < m → m < n → recvFuel m r' = recvFuel r.length r' := by
      intro m r' hr hm hmn
      rw [ih m hmn r' hm, ih r.length (by omega) r' hr]
    cases n with
    | zero => omega
    | succ n =>
      cases r with
      | nil => rfl
      | cons b r =>
        rw [List.length_cons] at h same ⊢
        cases r with
        | nil =>
          simp only [recvFuel]
          split
          · rw [same n [] (by simp) (by simp at h ⊢; omega) (by omega)]
            rfl
          · rfl
        | cons len r =>
          simp only [List.length_cons] at h same ⊢
          simp only [recvFuel]
          split
          · exact same n _ (by simp) (by simp; omega) (by omega)
          · split
            · exact same n _ (by omega) (by omega) (by omega)
            · split
              · rfl
              · split
                · exact same n _ (by rw [List.length_drop]; omega) (by rw [List.length_drop]; omega) (by omega)
                · rfl

theorem recv_nil : recv [] = (.noPacket, []) := rfl

/-- Rule R194, `Seek`: a byte other than SYN. -/
theorem recv_noise {b : Byte} (r : List Byte) (h : b ≠ Config.SYN) : recv (b :: r) = recv r := by
  show recvFuel (r.length + 1 + 1) (b :: r) = _
  simp only [recvFuel, if_pos h]
  rfl

/-- Rule R194, `Len` on the empty remainder. -/
theorem recv_synEnd : recv [Config.SYN] = (.noPacket, []) := rfl

/-- Rule R194, `Len`: a LEN below 4. -/
theorem recv_falseSyn {len : Byte} (r : List Byte) (h : len.toNat < 4) : recv (Config.SYN :: len :: r) = recv r := by
  show recvFuel (r.length + 1 + 1 + 1) (Config.SYN :: len :: r) = _
  simp only [recvFuel, ne_eq, not_true_eq_false, if_false, if_pos h]
  exact recvFuel_enough _ _ (by omega)

/-- Rule R194, `Body`: fewer than LEN bytes. -/
theorem recv_short {len : Byte} {r : List Byte} (h : 4 ≤ len.toNat) (hr : r.length < len.toNat) :
    recv (Config.SYN :: len :: r) = (.noPacket, []) := by
  show recvFuel (r.length + 1 + 1 + 1) (Config.SYN :: len :: r) = _
  simp only [recvFuel, ne_eq, not_true_eq_false, if_false]
  rw [if_neg (show ¬ len.toNat < 4 by omega), if_pos hr]

/-- Rule R194, `Body`: the checksum is wrong. -/
theorem recv_mismatch {len : Byte} {body : List Byte} (r : List Byte) (h : 4 ≤ len.toNat)
    (hb : body.length = len.toNat) (hc : chk (body.take (len.toNat - 1)) ≠ body.getD (len.toNat - 1) 0x00#8) :
    recv (Config.SYN :: len :: (body ++ r)) = recv r := by
  show recvFuel ((body ++ r).length + 1 + 1 + 1) (Config.SYN :: len :: (body ++ r)) = _
  have hlt : len.toNat - 1 < body.length := by omega
  simp only [recvFuel, ne_eq, not_true_eq_false, if_false]
  rw [if_neg (show ¬ len.toNat < 4 by omega), if_neg (by rw [List.length_append]; omega), if_pos]
  · rw [← hb, List.drop_left]
    exact recvFuel_enough _ _ (by rw [List.length_append]; omega)
  · rw [List.take_append_of_le_length (by omega), List.getD_append _ _ _ _ hlt]
    exact hc

/-- Rule R194, `Body`: the checksum is right. -/
theorem recv_verified {len : Byte} {body : List Byte} (r : List Byte) (h : 4 ≤ len.toNat)
    (hb : body.length = len.toNat) (hc : chk (body.take (len.toNat - 1)) = body.getD (len.toNat - 1) 0x00#8) :
    recv (Config.SYN :: len :: (body ++ r)) = (recvVerified len body, r) := by
  show recvFuel ((body ++ r).length + 1 + 1 + 1) (Config.SYN :: len :: (body ++ r)) = _
  have hlt : len.toNat - 1 < body.length := by omega
  simp only [recvFuel, ne_eq, not_true_eq_false, if_false]
  rw [if_neg (show ¬ len.toNat < 4 by omega), if_neg (by rw [List.length_append]; omega), if_neg, ← hb, List.drop_left,
    List.take_left]
  rw [List.take_append_of_le_length (by omega), List.getD_append _ _ _ _ hlt]
  exact not_not.2 hc

end Sys2Proof.Machine
end

