-- ==== Sys2Proof/Tests/Slice0.lean ====
section
/-!
SUPPORT. The model's own tests. Expected values come from spec/95_test_vectors.md (the vector is named) or from the opcode
table's patterns, written out bit by bit. After them, for every statement with hypotheses, a state and operands that meet
them together, at the boundary values of each clause.
-/

namespace Sys2Proof.Tests

open Sys2Proof Sys2Proof.Machine

/-! ## Small states -/

/-- A bank that holds a payload. -/
def holding (bs : List Byte) : Packet := Packet.empty.store bs

/-- The state after reset with this payload in bank 0. -/
def payload (bs : List Byte) : State := { State.reset with pk0 := holding bs }

/-- The operand ports. -/
def ports (a b : Int) (data : List Byte) (s : State) : State := { s with portA := a, portB := b, portData := data }

/-- How a command ended, with the code in STATUS. -/
def ending : Host.Outcome State Fault Refusal → Option (Byte × Ending)
  | .next t => t.results.getLast?.map fun c => (t.status, c.ending)
  | .fault _ | .refused _ => none

/-- A part of the next state. -/
def part {α : Type} (f : State → α) : Host.Outcome State Fault Refusal → Option α
  | .next t => some (f t)
  | .fault _ | .refused _ => none

/-- Bank 0 or 1 of the next state, as a host sees it. -/
def bankOf (k : BankIx) : Host.Outcome State Fault Refusal → Option AbsPacket := part fun t => (t.bank k).abs

/-- The body of the frame `G` of the vectors, after its SYN byte. -/
def bytesG : List Byte := [0x06#8, 0x02#8, 0x01#8, 0x0F#8, 0x41#8, 0x42#8, 0x95#8]

/-- The packet of the frame `G`. -/
def packetG : AbsPacket := ⟨0x01#8, 0x02#8, 0x0F#8, some [0x41#8, 0x42#8]⟩

/-- A RECEIVE on bank 1 in progress, seeking SYN. -/
def seeking : State := { State.reset with rxs := .seekSyn, rxk := 1 }

/-- The frame `G` but for its last byte has been taken. -/
def lastByte : State :=
  { seeking with rxs := .readBody, rxlen := 0x06#8, rxcnt := 0x05#8, rxsum := 0x95#8,
                 rxbuf := [(0, 0x02#8), (1, 0x01#8), (2, 0x0F#8), (3, 0x41#8), (4, 0x42#8)] }

/-- A SEND of vector TX-1 waiting for the transmit transport. -/
def sending : State :=
  { State.reset with
    pk0 := { holding [0x41#8, 0x42#8] with src := 0x01#8, dst := 0x02#8, typ := 0x0F#8 }, laddr := 0x01#8, txs := .emit,
    txbuf := Memory.writeN [] 0 (Config.SYN :: bytesG), txn := 0x08#8 }

/-- The same SEND, the first `n` bytes of its frame out. -/
def sendingOut (n : Nat) : State :=
  { sending with txpos := BitVec.ofNat 8 n, tx := (Config.SYN :: bytesG).take n }

/-! ## Decoding: every row of the table, its pattern written out -/

theorem test_decode_clear : decodeCommand 0b0000000100000001#16 = .ok (.clear 0x01#8) := by decide

theorem test_decode_setSource : decodeCommand 0b0000001000000001#16 = .ok (.setSource 0x01#8) := by decide

theorem test_decode_setDestination : decodeCommand 0b0000001100000001#16 = .ok (.setDestination 0x01#8) := by decide

theorem test_decode_setType : decodeCommand 0b0000010000000001#16 = .ok (.setType 0x01#8) := by decide

theorem test_decode_getSource : decodeCommand 0b0000010100000001#16 = .ok (.getSource 0x01#8) := by decide

theorem test_decode_getDestination : decodeCommand 0b0000011000000001#16 = .ok (.getDestination 0x01#8) := by decide

theorem test_decode_getType : decodeCommand 0b0000011100000001#16 = .ok (.getType 0x01#8) := by decide

theorem test_decode_setData : decodeCommand 0b0000100000000001#16 = .ok (.setData 0x01#8) := by decide

theorem test_decode_getData : decodeCommand 0b0000100100000001#16 = .ok (.getData 0x01#8) := by decide

theorem test_decode_setString : decodeCommand 0b0000101000000001#16 = .ok (.setString 0x01#8) := by decide

theorem test_decode_getString : decodeCommand 0b0000101100000001#16 = .ok (.getString 0x01#8) := by decide

theorem test_decode_setAddress : decodeCommand 0b0000110000000000#16 = .ok (.setAddress) := by decide

theorem test_decode_getAddress : decodeCommand 0b0000110100000000#16 = .ok (.getAddress) := by decide

theorem test_decode_send : decodeCommand 0b0001000000000001#16 = .ok (.send 0x01#8) := by decide

theorem test_decode_sendT : decodeCommand 0b0001000100000001#16 = .ok (.sendT 0x01#8) := by decide

theorem test_decode_sendD : decodeCommand 0b0001001000000001#16 = .ok (.sendD 0x01#8) := by decide

theorem test_decode_sendDT : decodeCommand 0b0001001100000001#16 = .ok (.sendDT 0x01#8) := by decide

theorem test_decode_receive : decodeCommand 0b0001100000000001#16 = .ok (.receive 0x01#8) := by decide

theorem test_decode_setInteger1U : decodeCommand 0b0010000000000001#16 = .ok (.setInteger1U 0x01#8) := by decide

theorem test_decode_setInteger2U : decodeCommand 0b0010000100000001#16 = .ok (.setInteger2U 0x01#8) := by decide

theorem test_decode_setInteger4U : decodeCommand 0b0010001000000001#16 = .ok (.setInteger4U 0x01#8) := by decide

theorem test_decode_setInteger8U : decodeCommand 0b0010001100000001#16 = .ok (.setInteger8U 0x01#8) := by decide

theorem test_decode_setInteger1S : decodeCommand 0b0010010000000001#16 = .ok (.setInteger1S 0x01#8) := by decide

theorem test_decode_setInteger2S : decodeCommand 0b0010010100000001#16 = .ok (.setInteger2S 0x01#8) := by decide

theorem test_decode_setInteger4S : decodeCommand 0b0010011000000001#16 = .ok (.setInteger4S 0x01#8) := by decide

theorem test_decode_setInteger8S : decodeCommand 0b0010011100000001#16 = .ok (.setInteger8S 0x01#8) := by decide

theorem test_decode_getInteger1U : decodeCommand 0b0010100000000001#16 = .ok (.getInteger1U 0x01#8) := by decide

theorem test_decode_getInteger2U : decodeCommand 0b0010100100000001#16 = .ok (.getInteger2U 0x01#8) := by decide

theorem test_decode_getInteger4U : decodeCommand 0b0010101000000001#16 = .ok (.getInteger4U 0x01#8) := by decide

theorem test_decode_getInteger8U : decodeCommand 0b0010101100000001#16 = .ok (.getInteger8U 0x01#8) := by decide

theorem test_decode_getInteger1S : decodeCommand 0b0010110000000001#16 = .ok (.getInteger1S 0x01#8) := by decide

theorem test_decode_getInteger2S : decodeCommand 0b0010110100000001#16 = .ok (.getInteger2S 0x01#8) := by decide

theorem test_decode_getInteger4S : decodeCommand 0b0010111000000001#16 = .ok (.getInteger4S 0x01#8) := by decide

theorem test_decode_getInteger8S : decodeCommand 0b0010111100000001#16 = .ok (.getInteger8S 0x01#8) := by decide

theorem test_decode_reserved00 : decodeCommand 0b0000000010100101#16 = .ok (.reserved00 0b10100101#8) := by decide

theorem test_decode_reserved0E : decodeCommand 0b0000111110100101#16 = .ok (.reserved0E 0b1#1 0b10100101#8) := by decide

theorem test_decode_reserved14 : decodeCommand 0b0001011110100101#16 = .ok (.reserved14 0b11#2 0b10100101#8) := by decide

theorem test_decode_reserved19 : decodeCommand 0b0001100110100101#16 = .ok (.reserved19 0b10100101#8) := by decide

theorem test_decode_reserved1A : decodeCommand 0b0001101110100101#16 = .ok (.reserved1A 0b1#1 0b10100101#8) := by decide

theorem test_decode_reserved1C : decodeCommand 0b0001111110100101#16 = .ok (.reserved1C 0b11#2 0b10100101#8) := by decide

theorem test_decode_reserved30 : decodeCommand 0b0011111110100101#16 = .ok (.reserved30 0b1111#4 0b10100101#8) := by decide

theorem test_decode_reserved40 : decodeCommand 0b0111111110100101#16 = .ok (.reserved40 0b111111#6 0b10100101#8) := by decide

theorem test_decode_reserved80 : decodeCommand 0b1111111110100101#16 = .ok (.reserved80 0b1111111#7 0b10100101#8) := by decide

theorem test_decode_frame : decodeWire [0b00000010#8, 0x04#8, 0x00#8, 0x00#8, 0x00#8, 0x00#8, 0xAA#8] =
    .ok (.frame [0x04#8, 0x00#8, 0x00#8, 0x00#8, 0x00#8], [0xAA#8]) := by decide

theorem test_decode_frame_syn_alone : decodeTableWord 8 0b00000010 = some (.frame []) := by decide

theorem test_decode_frameFalseSyn : decodeWire [0b00000010#8, 0b00000010#8, 0x06#8] =
    .ok (.frameFalseSyn 0b10#2, [0x06#8]) := by decide

theorem test_decode_rejects_address_k : decodeCommand 0x0C01#16 = .error (.addressCommandWithK 0x0C#8 0x01#8) := by
  decide

theorem test_decode_rejects_noise : decodeWire [0x06#8, 0x02#8] = .error (.noise 0x06#8) := by decide

/-! ## Well-formed instructions: what the check refuses -/

theorem test_wf_bank_out_of_range : (Instr.clear 0x02#8).wf = false ∧ (Instr.sendDT 0xFF#8).wf = false := by decide

theorem test_wf_frame_len_below_4 : (Instr.frame [0x03#8]).wf = false := by decide

theorem test_wf_frame_body_too_long :
    (Instr.frame [0x04#8, 0x01#8, 0x02#8, 0x03#8, 0x06#8, 0x00#8]).wf = false := by decide

theorem test_wf_last_bank : (Instr.clear 0x01#8).wf = true ∧ (Instr.frame [0x04#8, 0x01#8]).wf = true := by decide

/-! ## One command each -/

/-- Vector HDR-7: CLEAR makes the payload unset and the header 0. -/
theorem test_clear :
    bankOf 0 (exec (.clear 0x00#8) { State.reset with pk0 := { holding [0x41#8] with src := 0x07#8 } }) =
      some ⟨0x00#8, 0x00#8, 0x00#8, none⟩ := by decide

/-- Vector HDR-12. -/
theorem test_clear_illegal :
    ending (exec (.clear 0x02#8) State.reset) = some (0x07#8, .fault .illegalCmd .none) := by decide

/-- Vector HDR-2. -/
theorem test_setSource :
    part (fun t => t.pk0.src) (exec (.setSource 0x00#8) (ports 255 0 [] State.reset)) = some 0xFF#8 := by decide

/-- Vector HDR-3. -/
theorem test_setSource_range :
    ending (exec (.setSource 0x00#8) (ports 256 0 [] State.reset)) = some (0x01#8, .fault .range (.bounds 0 255 256)) := by decide

/-- Vector HDR-6. -/
theorem test_setDestination :
    part (fun t => (t.pk0.dst, t.pk1.dst)) (exec (.setDestination 0x00#8) (ports 2 0 [] State.reset)) =
      some (0x02#8, 0x00#8) := by decide

/-- Vector HDR-4. -/
theorem test_setDestination_range :
    ending (exec (.setDestination 0x01#8) (ports (-1) 0 [] State.reset)) =
      some (0x01#8, .fault .range (.bounds 0 255 (-1))) := by decide

/-- Vector HDR-5. -/
theorem test_setType :
    part (fun t => t.pk0.typ) (exec (.setType 0x00#8) (ports 15 0 [] State.reset)) = some 0x0F#8 := by decide

/-- Program P1, line 5. -/
theorem test_getSource :
    ending (exec (.getSource 0x00#8) sending) = some (0x00#8, .okByte 0x01#8) := by decide

/-- Program P1: its end state. -/
theorem test_getDestination :
    ending (exec (.getDestination 0x00#8) sending) = some (0x00#8, .okByte 0x02#8) := by decide

/-- Program P1: its end state. -/
theorem test_getType :
    ending (exec (.getType 0x00#8) sending) = some (0x00#8, .okByte 0x0F#8) := by decide

/-- Vector DATA-7: the payload is replaced. -/
theorem test_setData :
    bankOf 0 (exec (.setData 0x00#8) (ports 0 0 [0xAA#8] (payload [0x01#8, 0x02#8, 0x03#8, 0x04#8]))) =
      some ⟨0x00#8, 0x00#8, 0x00#8, some [0xAA#8]⟩ := by decide

/-- Vector DATA-4. -/
theorem test_setData_overflow :
    ending (exec (.setData 0x00#8) (ports 0 0 (List.replicate 129 0x00#8) (payload [0x41#8, 0x42#8]))) =
      some (0x02#8, .fault .overflow (.limit 128)) := by decide +kernel

/-- Vector DATA-8. -/
theorem test_getData :
    ending (exec (.getData 0x00#8) (payload [0x41#8, 0x42#8])) = some (0x00#8, .okBytes [0x41#8, 0x42#8]) := by decide

/-- Vector DATA-1. -/
theorem test_getData_unset :
    ending (exec (.getData 0x00#8) State.reset) = some (0x03#8, .fault .nodata .none) := by decide

/-- Vector STR-1. -/
theorem test_setString :
    bankOf 0 (exec (.setString 0x00#8) (ports 0 0 [0x48#8, 0x69#8] State.reset)) =
      some ⟨0x00#8, 0x00#8, 0x00#8, some [0x48#8, 0x69#8, 0x00#8]⟩ := by decide

/-- Vector STR-4. -/
theorem test_setString_overflow :
    ending (exec (.setString 0x00#8) (ports 0 0 (List.replicate 128 0x61#8) (payload [0xAA#8]))) =
      some (0x02#8, .fault .overflow (.limit 128)) := by decide +kernel

/-- Vector STR-9: only the last byte is the terminator. -/
theorem test_getString :
    ending (exec (.getString 0x00#8) (payload [0x41#8, 0x00#8, 0x42#8, 0x00#8])) =
      some (0x00#8, .okBytes [0x41#8, 0x00#8, 0x42#8]) := by decide

/-- Vector STR-7. -/
theorem test_getString_empty :
    ending (exec (.getString 0x00#8) (payload [])) = some (0x04#8, .fault .format .none) := by decide

/-- Program P1, line 1. -/
theorem test_setAddress :
    part (fun t => t.laddr) (exec .setAddress (ports 1 0 [] State.reset)) = some 0x01#8 := by decide

/-- Vector HDR-8. -/
theorem test_setAddress_range :
    ending (exec .setAddress (ports 300 0 [] State.reset)) = some (0x01#8, .fault .range (.bounds 0 255 300)) := by decide

/-- Vector HDR-9. -/
theorem test_getAddress :
    ending (exec .getAddress { State.reset with laddr := 0x09#8 }) = some (0x00#8, .okByte 0x09#8) := by decide

/-- Vector TX-4. -/
theorem test_send :
    part (fun t => t.tx) (exec (.send 0x00#8)
      { State.reset with pk0 := { holding [0xFE#8, 0xFF#8] with dst := 0x05#8, typ := 0x07#8 }, laddr := 0x01#8,
                         txAns := [.done] }) =
      some [0x02#8, 0x06#8, 0x05#8, 0x01#8, 0x07#8, 0xFE#8, 0xFF#8, 0x0A#8] := by decide

/-- Vector TX-2. -/
theorem test_send_empty :
    part (fun t => t.tx) (exec (.send 0x00#8) { payload [] with txAns := [.done] }) =
      some [0x02#8, 0x04#8, 0x00#8, 0x00#8, 0x00#8, 0x00#8] := by decide

/-- Program P4, line 10. -/
theorem test_sendT :
    part (fun t => (t.tx, t.pk0.typ)) (exec (.sendT 0x00#8) (ports 0 255 []
      { State.reset with pk0 := { holding [0x40#8, 0x9C#8] with dst := 0x07#8 }, laddr := 0x05#8, txAns := [.done] })) =
      some ([0x02#8, 0x06#8, 0x07#8, 0x05#8, 0xFF#8, 0x40#8, 0x9C#8, 0xE7#8], 0xFF#8) := by decide

/-- Vector TX-11: the header is written before the fault. -/
theorem test_sendD_nodata :
    bankOf 0 (exec (.sendD 0x00#8) (ports 7 0 [] { State.reset with laddr := 0x05#8 })) =
      some ⟨0x05#8, 0x07#8, 0x00#8, none⟩ := by decide

/-- Vector TX-12. -/
theorem test_sendD_range :
    ending (exec (.sendD 0x00#8) (ports 256 0 [] (payload [0x41#8]))) =
      some (0x01#8, .fault .range (.bounds 0 255 256)) := by decide

/-- Vector TX-1. -/
theorem test_sendDT :
    part (fun t => t.tx) (exec (.sendDT 0x00#8) (ports 2 15 []
      { payload [0x41#8, 0x42#8] with laddr := 0x01#8, txAns := [.done] })) = some (Config.SYN :: bytesG) := by decide

/-- Vector TX-14, the prefix of three bytes. -/
theorem test_sendDT_ioerr :
    part (fun t => (t.tx, t.status)) (exec (.sendDT 0x00#8) (ports 2 3 []
      { payload [0x41#8] with laddr := 0x01#8, txAns := [.ioerr 3] })) = some ([0x02#8, 0x05#8, 0x02#8], 0x06#8) := by decide

/-- The trace of vector RX-1, its first line. -/
theorem test_receive :
    part (fun t => (t.rxs, t.rxk, t.rx)) (exec (.receive 0x01#8) { State.reset with rx := [.byte 0x02#8] }) =
      some (.seekSyn, 1, [.byte 0x02#8]) := by decide

/-- Vector INT-2. -/
theorem test_setInteger1U :
    bankOf 0 (exec (.setInteger1U 0x00#8) (ports 255 0 [] State.reset)) =
      some ⟨0x00#8, 0x00#8, 0x00#8, some [0xFF#8]⟩ := by decide

/-- Vector INT-24. -/
theorem test_setInteger1U_range :
    ending (exec (.setInteger1U 0x00#8) (ports 256 0 [] (payload [0xAA#8]))) =
      some (0x01#8, .fault .range (.bounds 0 255 256)) := by decide

/-- Vector INT-8. -/
theorem test_setInteger2U :
    bankOf 0 (exec (.setInteger2U 0x00#8) (ports 4660 0 [] State.reset)) =
      some ⟨0x00#8, 0x00#8, 0x00#8, some [0x34#8, 0x12#8]⟩ := by decide

/-- Vector INT-27. -/
theorem test_setInteger2U_range :
    ending (exec (.setInteger2U 0x00#8) (ports (-1) 0 [] (payload [0xAA#8]))) =
      some (0x01#8, .fault .range (.bounds 0 65535 (-1))) := by decide

/-- Vector INT-16. -/
theorem test_setInteger4U :
    bankOf 0 (exec (.setInteger4U 0x00#8) (ports 305419896 0 [] State.reset)) =
      some ⟨0x00#8, 0x00#8, 0x00#8, some [0x78#8, 0x56#8, 0x34#8, 0x12#8]⟩ := by decide

/-- Vector INT-32. -/
theorem test_setInteger4U_range :
    ending (exec (.setInteger4U 0x00#8) (ports 4294967296 0 [] (payload [0xAA#8]))) =
      some (0x01#8, .fault .range (.bounds 0 4294967295 4294967296)) := by decide

/-- Vector INT-20. -/
theorem test_setInteger8U :
    bankOf 0 (exec (.setInteger8U 0x00#8) (ports 72623859790382856 0 [] State.reset)) =
      some ⟨0x00#8, 0x00#8, 0x00#8, some [0x08#8, 0x07#8, 0x06#8, 0x05#8, 0x04#8, 0x03#8, 0x02#8, 0x01#8]⟩ := by decide

/-- Vector INT-36. -/
theorem test_setInteger8U_range :
    ending (exec (.setInteger8U 0x00#8) (ports 18446744073709551616 0 [] (payload [0xAA#8]))) =
      some (0x01#8, .fault .range (.bounds 0 18446744073709551615 18446744073709551616)) := by decide

/-- Vector INT-3. -/
theorem test_setInteger1S :
    bankOf 0 (exec (.setInteger1S 0x00#8) (ports (-128) 0 [] State.reset)) =
      some ⟨0x00#8, 0x00#8, 0x00#8, some [0x80#8]⟩ := by decide

/-- Vector INT-25. -/
theorem test_setInteger1S_range :
    ending (exec (.setInteger1S 0x00#8) (ports (-129) 0 [] (payload [0xAA#8]))) =
      some (0x01#8, .fault .range (.bounds (-128) 127 (-129))) := by decide

/-- Vector INT-14. -/
theorem test_setInteger2S :
    bankOf 0 (exec (.setInteger2S 0x00#8) (ports (-300) 0 [] State.reset)) =
      some ⟨0x00#8, 0x00#8, 0x00#8, some [0xD4#8, 0xFE#8]⟩ := by decide

/-- Vector INT-30. -/
theorem test_setInteger2S_range :
    ending (exec (.setInteger2S 0x00#8) (ports 32768 0 [] (payload [0xAA#8]))) =
      some (0x01#8, .fault .range (.bounds (-32768) 32767 32768)) := by decide

/-- Vector INT-17. -/
theorem test_setInteger4S :
    bankOf 0 (exec (.setInteger4S 0x00#8) (ports (-2147483648) 0 [] State.reset)) =
      some ⟨0x00#8, 0x00#8, 0x00#8, some [0x00#8, 0x00#8, 0x00#8, 0x80#8]⟩ := by decide

/-- Vector INT-34. -/
theorem test_setInteger4S_range :
    ending (exec (.setInteger4S 0x00#8) (ports 2147483648 0 [] (payload [0xAA#8]))) =
      some (0x01#8, .fault .range (.bounds (-2147483648) 2147483647 2147483648)) := by decide

/-- Vector INT-22. -/
theorem test_setInteger8S :
    bankOf 0 (exec (.setInteger8S 0x00#8) (ports (-1) 0 [] State.reset)) =
      some ⟨0x00#8, 0x00#8, 0x00#8, some [0xFF#8, 0xFF#8, 0xFF#8, 0xFF#8, 0xFF#8, 0xFF#8, 0xFF#8, 0xFF#8]⟩ := by decide

/-- Vector INT-37. -/
theorem test_setInteger8S_range :
    ending (exec (.setInteger8S 0x00#8) (ports (-9223372036854775809) 0 [] (payload [0xAA#8]))) =
      some (0x01#8, .fault .range (.bounds (-9223372036854775808) 9223372036854775807 (-9223372036854775809))) := by decide

/-- Vector INT-2. -/
theorem test_getInteger1U :
    ending (exec (.getInteger1U 0x00#8) (payload [0xFF#8])) = some (0x00#8, .okInt 255) := by decide

/-- Vector INT-8. -/
theorem test_getInteger2U :
    ending (exec (.getInteger2U 0x00#8) (payload [0x34#8, 0x12#8])) = some (0x00#8, .okInt 4660) := by decide

/-- Vector INT-16. -/
theorem test_getInteger4U :
    ending (exec (.getInteger4U 0x00#8) (payload [0x78#8, 0x56#8, 0x34#8, 0x12#8])) = some (0x00#8, .okInt 305419896) := by decide

/-- Vector INT-20. -/
theorem test_getInteger8U :
    ending (exec (.getInteger8U 0x00#8) (payload [0x08#8, 0x07#8, 0x06#8, 0x05#8, 0x04#8, 0x03#8, 0x02#8, 0x01#8])) = some (0x00#8, .okInt 72623859790382856) := by decide

/-- Vector INT-3. -/
theorem test_getInteger1S :
    ending (exec (.getInteger1S 0x00#8) (payload [0x80#8])) = some (0x00#8, .okInt (-128)) := by decide

/-- Vector INT-14. -/
theorem test_getInteger2S :
    ending (exec (.getInteger2S 0x00#8) (payload [0xD4#8, 0xFE#8])) = some (0x00#8, .okInt (-300)) := by decide

/-- Vector INT-17. -/
theorem test_getInteger4S :
    ending (exec (.getInteger4S 0x00#8) (payload [0x00#8, 0x00#8, 0x00#8, 0x80#8])) = some (0x00#8, .okInt (-2147483648)) := by decide

/-- Vector INT-22. -/
theorem test_getInteger8S :
    ending (exec (.getInteger8S 0x00#8) (payload [0xFF#8, 0xFF#8, 0xFF#8, 0xFF#8, 0xFF#8, 0xFF#8, 0xFF#8, 0xFF#8])) = some (0x00#8, .okInt (-1)) := by decide

/-- Vector INT-40. -/
theorem test_getInteger1U_longer :
    ending (exec (.getInteger1U 0x00#8) (payload [0xFE#8, 0xFF#8])) = some (0x00#8, .okInt 254) := by decide

/-- Vector INT-42. -/
theorem test_getInteger4U_short :
    ending (exec (.getInteger4U 0x00#8) (payload [0xFE#8, 0xFF#8])) = some (0x05#8, .fault .decode (.short 4 2)) := by decide

/-- Vector HDR-11: a reserved operation code. -/
theorem test_reserved00 :
    ending (exec (.reserved00 0x02#8) State.reset) = some (0x07#8, .fault .illegalCmd .none) := by decide

/-- Rule R83. -/
theorem test_reserved0E :
    ending (exec (.reserved0E 0 0x02#8) State.reset) = some (0x07#8, .fault .illegalCmd .none) := by decide

/-- Rule R83. -/
theorem test_reserved14 :
    ending (exec (.reserved14 0 0x02#8) State.reset) = some (0x07#8, .fault .illegalCmd .none) := by decide

/-- Rule R83. -/
theorem test_reserved19 :
    ending (exec (.reserved19 0x02#8) State.reset) = some (0x07#8, .fault .illegalCmd .none) := by decide

/-- Rule R83. -/
theorem test_reserved1A :
    ending (exec (.reserved1A 0 0x02#8) State.reset) = some (0x07#8, .fault .illegalCmd .none) := by decide

/-- Rule R83. -/
theorem test_reserved1C :
    ending (exec (.reserved1C 0 0x02#8) State.reset) = some (0x07#8, .fault .illegalCmd .none) := by decide

/-- Rule R83. -/
theorem test_reserved30 :
    ending (exec (.reserved30 0 0x02#8) State.reset) = some (0x07#8, .fault .illegalCmd .none) := by decide

/-- Rule R83. -/
theorem test_reserved40 :
    ending (exec (.reserved40 0 0x02#8) State.reset) = some (0x07#8, .fault .illegalCmd .none) := by decide

/-- Rule R83. -/
theorem test_reserved80 :
    ending (exec (.reserved80 0 0x02#8) State.reset) = some (0x07#8, .fault .illegalCmd .none) := by decide

/-- Vector RX-1: the frame `G` is delivered. -/
theorem test_frame :
    bankOf 1 (exec (.frame bytesG) seeking) = some packetG := by decide

/-- Vector RX-2: the corrupt frame is discarded, the scan goes on. -/
theorem test_frame_corrupt :
    part (fun t => (t.rxs, t.pk1, t.results.length)) (exec (.frame (bytesG.take 6 ++ [0x6A#8])) seeking) =
      some (.seekSyn, Packet.empty, 0) := by decide

/-- Vector RX-5: a LEN of 3 is a false match. -/
theorem test_frameFalseSyn :
    part (fun t => (t.rxs, t.results.length)) (exec (.frameFalseSyn 3) seeking) = some (.seekSyn, 0) := by decide

/-! ## One step of the machine -/

/-- Program P1, line 4, as the host issues it. -/
theorem test_step_issues :
    part (fun t => t.tx) (step { payload [0x41#8, 0x42#8] with
      laddr := 0x01#8, txAns := [.done], cmds := [⟨0x1300#16, 2, 15, []⟩] }) = some (Config.SYN :: bytesG) := by decide

/-- Rule R83: SETADDRESS with `K` not 0. -/
theorem test_step_illegal_address :
    ending (step { State.reset with cmds := [⟨0x0C01#16, 9, 0, []⟩] }) = some (0x07#8, .fault .illegalCmd .none) := by decide

/-- Vector RX-7: a LEN of `0x02` is a false match, not a SYN. -/
theorem test_step_len_of_2 :
    part (fun t => t.rxs) (step { seeking with rxs := .readLen, rx := [.byte 0x02#8] }) = some .seekSyn := by decide

/-- Vector RX-20: its last byte. -/
theorem test_step_oversize :
    ending (step { seeking with rxs := .readBody, rxlen := 0x85#8, rxcnt := 0x84#8, rxsum := 0x06#8, rx := [.byte 0x06#8] }) =
      some (0x02#8, .fault .overflow (.limit 128)) := by decide

/-- Vector RX-4: the stream ends inside the body. -/
theorem test_step_truncated :
    ending (step { lastByte with rx := [.eof] }) = some (0x12#8, .noPacket) := by decide

/-- Vector RX-9. -/
theorem test_step_eof_seek :
    ending (step { seeking with rx := [.eof] }) = some (0x10#8, .noPacket) := by decide

/-- Vector RX-10. -/
theorem test_step_eof_len :
    ending (step { seeking with rxs := .readLen, rx := [.eof] }) = some (0x11#8, .noPacket) := by decide

/-- Vector RX-14. -/
theorem test_step_ioerr :
    ending (step { lastByte with rx := [.ioerr] }) = some (0x13#8, .noPacket) := by decide

/-- Vector RX-1: its last byte. -/
theorem test_step_materialise :
    bankOf 1 (step { lastByte with rx := [.byte 0x95#8] }) = some packetG := by decide

/-- Rule R260: reset in the middle of a SEND, three bytes of the frame out. -/
theorem test_step_reset :
    part (fun t => (t.tx, t.pk0, t.laddr, t.results.length)) (step { sendingOut 3 with resetLine := [.assert] }) =
      some ([0x02#8, 0x06#8, 0x02#8], Packet.empty, 0x00#8, 0) := by decide

/-- Rules R23 and R43: three bytes out, two more go out, and no answer yet. -/
theorem test_step_position :
    part (fun t => (t.tx, t.txpos, t.txs, t.results.length)) (step { sendingOut 3 with txAns := [.pending 2] }) =
      some ([0x02#8, 0x06#8, 0x02#8, 0x01#8, 0x0F#8], 0x05#8, .emit, 0) := by decide

/-- Vectors CHK-2, CHK-3 and CHK-5. -/
theorem test_checksum :
    chk [0x02#8, 0x01#8, 0x0F#8, 0x41#8, 0x42#8] = 0x95#8 ∧ chk [0xFF#8, 0xFF#8, 0xFF#8, 0xFF#8] = 0xFC#8 ∧
      chk [0x80#8, 0x80#8] = 0x00#8 := by decide

/-- Vector RX-8: what follows the frame stays unread. -/
theorem test_recv_false_match :
    recv ([0x02#8, 0x00#8] ++ Config.SYN :: bytesG ++ [0xAA#8]) =
      (.ok 0x02#8 0x01#8 0x0F#8 [0x41#8, 0x42#8], [0xAA#8]) := by decide

/-- Vector RX-18: LEN corrupted upward. -/
theorem test_recv_swallowed :
    (recv ([0x02#8, 0x0C#8] ++ bytesG.drop 1 ++ (Config.SYN :: bytesG) ++ (Config.SYN :: bytesG))).1 =
      .ok 0x02#8 0x01#8 0x0F#8 [0x41#8, 0x42#8] := by decide

/-! ## The hypotheses of every statement can be met -/

theorem noReset_nil {s : State} (h : s.resetLine = []) : NoReset s := by
  simp [NoReset, h]

/-- A state between commands with this command at the port. -/
def atPort (w : CmdWord) (a : Int) : State := { State.reset with cmds := [⟨w, a, 0, []⟩] }

theorem inv_reset : State.reset.Inv := by
  refine ⟨?_, by decide, by decide, by decide, .inl rfl, ?_, ?_⟩
  · unfold Packet.Inv
    decide
  · exact fun h => nomatch h
  · exact fun h => nomatch h

theorem inv_sending : sending.Inv := by
  refine ⟨?_, by decide, by decide, by decide, .inl rfl, ?_, ?_⟩
  · unfold Packet.Inv
    decide
  · exact fun h => nomatch h
  · intro _
    exact ⟨0, [0x41#8, 0x42#8], [], by decide, by decide, by decide, by decide, by decide⟩

theorem inv_sendingOut : (sendingOut 3).Inv := by
  refine ⟨?_, by decide, by decide, by decide, .inl rfl, ?_, ?_⟩
  · unfold Packet.Inv
    decide
  · exact fun h => nomatch h
  · intro _
    exact ⟨0, [0x41#8, 0x42#8], [], by decide, by decide, by decide, by decide, by decide⟩

theorem inv_lastByte : lastByte.Inv := by
  refine ⟨?_, by decide, by decide, by decide, .inr rfl, ?_, ?_⟩
  · unfold Packet.Inv
    decide
  · intro _
    decide
  · exact fun h => nomatch h

theorem witness_DecodeOfEncodeIsTheInstruction :
    (Instr.frame (0xFF#8 :: List.replicate 2 0x00#8)).wf = true ∧ (Instr.frame []).wf = true ∧
    (Instr.sendDT 0x01#8).wf = true ∧ (Instr.reserved80 0x7F#7 0xFF#8).wf = true := by decide

theorem witness_EncodeOfDecodeIsTheWord :
    decodeCommand 0x0000#16 = .ok (.reserved00 0x00#8) ∧ decodeCommand 0xFFFF#16 = .ok (.reserved80 0x7F#7 0xFF#8) := by
  decide

theorem witness_DecoderFollowsTheOpcodeTable :
    ((⟨"SEND.DT", 0xFF00#16, 0x1300#16⟩ : TableRow) ∈ tableRows ∧
      (⟨"SEND.DT", 0xFF00#16, 0x1300#16⟩ : TableRow).covers 0x13FF#16 = true) ∧
    (opField 0x0C01#16 = 0x0C#8 ∧ kField 0x0C01#16 ≠ 0#8) ∧ (opField 0x0DFF#16 = 0x0D#8 ∧ kField 0x0DFF#16 ≠ 0#8) := by
  decide

theorem witness_WireDecoderSplitsTheStream :
    decodeWire (Config.SYN :: bytesG ++ [0xAA#8]) = .ok (.frame bytesG, [0xAA#8]) ∧ (0x03#8 : Byte) ≠ 0x02#8 ∧
    (0x00#8 : Byte).toNat < 4 ∧ (0x03#8 : Byte).toNat < 4 ∧ 4 ≤ (0x04#8 : Byte).toNat ∧ 4 ≤ (0xFF#8 : Byte).toNat := by
  decide

theorem witness_StepRunsTheIssuedCommand :
    NoReset (atPort 0x0C00#16 9) ∧ Between (atPort 0x0C00#16 9) ∧
    (atPort 0x0C00#16 9).cmds = [⟨0x0C00#16, 9, 0, []⟩] ∧ decodeCommand 0x0C00#16 = .ok .setAddress :=
  ⟨noReset_nil rfl, ⟨rfl, rfl⟩, rfl, rfl⟩

theorem witness_WaitingChangesNothing :
    (NoReset State.reset ∧ Between State.reset ∧ State.reset.cmds = []) ∧
    (NoReset seeking ∧ seeking.txs = .idle ∧ seeking.rxs ≠ .idle ∧ seeking.rx = []) ∧
    (NoReset sending ∧ sending.txs = .emit ∧ sending.txAns = []) ∧
    (NoReset { sending with txAns := [.pending 0] } ∧ { sending with txAns := [.pending 0] }.txs = .emit ∧
      { sending with txAns := [.pending 0] }.loadedFrame = some (Config.SYN :: bytesG)) :=
  ⟨⟨noReset_nil rfl, ⟨rfl, rfl⟩, rfl⟩, ⟨noReset_nil rfl, rfl, nofun, rfl⟩, ⟨noReset_nil rfl, rfl, rfl⟩,
    ⟨noReset_nil rfl, rfl, by decide⟩⟩

theorem witness_CommandsAndBytesAreTakenInOrder :
    part (fun t => t.cmds) (step (atPort 0x0C00#16 9)) = some [] ∧
    part (fun t => t.rx) (step { seeking with rx := [.byte 0x02#8, .eof] }) = some [.eof] := by decide

theorem witness_ResetAbandonsTheCommand :
    { sendingOut 3 with resetLine := [.assert, .low] }.resetLine = [.assert, .low] ∧
    State.Inv { sendingOut 3 with resetLine := [.assert, .low] } ∧
    { sendingOut 3 with resetLine := [.assert, .low] }.txs = .emit ∧
    { sendingOut 3 with resetLine := [.assert, .low] }.loadedFrame = some (Config.SYN :: bytesG) :=
  ⟨rfl, inv_sendingOut, rfl, by decide⟩

theorem witness_HeaderSettersCheckThenStore :
    (headerSetters.map fun c => c.1 0x00#8) = [.setSource 0x00#8, .setDestination 0x00#8, .setType 0x00#8] ∧
    (0 : Int) ≤ (ports 0 0 [] State.reset).portA ∧ (ports 255 0 [] State.reset).portA ≤ 255 ∧
    (ports (-1) 0 [] State.reset).portA < 0 ∧ 255 < (ports 256 0 [] State.reset).portA := by decide

theorem witness_HeaderGettersReturnTheByte :
    (headerGetters.map fun c => c.1 0x01#8) = [.getSource 0x01#8, .getDestination 0x01#8, .getType 0x01#8] := by decide

theorem witness_AddressCommandsReachLaddr :
    (0 : Int) ≤ (ports 0 0 [] State.reset).portA ∧ (ports 255 0 [] State.reset).portA ≤ 255 ∧
    (ports (-1) 0 [] State.reset).portA < 0 ∧ 255 < (ports 256 0 [] State.reset).portA := by decide

theorem witness_LaddrChangesOnlyBySetAddressOrReset :
    part (fun t => t.laddr) (step (atPort 0x0C00#16 9)) = some 0x09#8 ∧ State.reset.laddr = 0x00#8 := by decide

theorem witness_PsetIsClearedOnlyByClearOrReset :
    { payload [] with cmds := [⟨0x0100#16, 0, 0, []⟩] }.pk0.pset = true ∧
    part (fun t => t.pk0.pset) (step { payload [] with cmds := [⟨0x0100#16, 0, 0, []⟩] }) = some false := by decide

theorem witness_IllegalCommandsEndIllegal :
    ReservedInstr (.reserved00 0x00#8) ∧ ReservedInstr (.reserved80 0x7F#7 0xFF#8) ∧
    (bankCommands.map fun c => c 0x02#8).length = 32 ∧ 2 ≤ (0x02#8 : BitVec 8).toNat ∧ 2 ≤ (0xFF#8 : BitVec 8).toNat :=
  ⟨.inl ⟨_, rfl⟩, .inr (.inr (.inr (.inr (.inr (.inr (.inr (.inr ⟨_, _, rfl⟩))))))), rfl, by decide, by decide⟩

theorem witness_StepRefusesEveryIllegalWord :
    (IllegalWord 0x0000#16 ∧ IllegalWord 0x0F00#16 ∧ IllegalWord 0x1400#16 ∧ IllegalWord 0x1F00#16 ∧
      IllegalWord 0x3000#16 ∧ IllegalWord 0xFFFF#16 ∧ IllegalWord 0x0C01#16 ∧ IllegalWord 0x0DFF#16 ∧
      IllegalWord 0x0102#16 ∧ IllegalWord 0x2FFF#16) ∧
    NoReset (atPort 0x0000#16 0) ∧ Between (atPort 0x0000#16 0) ∧ (atPort 0x0000#16 0).cmds = [⟨0x0000#16, 0, 0, []⟩] := by
  refine ⟨⟨?_, ?_, ?_, ?_, ?_, ?_, ?_, ?_, ?_, ?_⟩, noReset_nil rfl, ⟨rfl, rfl⟩, rfl⟩
  · exact .inl (.inl (by decide))
  · exact .inl (.inr (.inl (by decide)))
  · exact .inl (.inr (.inr (.inl (by decide))))
  · exact .inl (.inr (.inr (.inr (.inl (by decide)))))
  · exact .inl (.inr (.inr (.inr (.inr (by decide)))))
  · exact .inl (.inr (.inr (.inr (.inr (by decide)))))
  · exact .inr (.inl (by decide))
  · exact .inr (.inl (by decide))
  · exact .inr (.inr (by decide))
  · exact .inr (.inr (by decide))

theorem witness_SetDataReplacesThePayload :
    (payload [0xAA#8]).pk0.pay.wf 128 = true ∧ (ports 0 0 [] State.reset).portData.length ≤ 128 ∧
    (ports 0 0 (List.replicate 128 0x01#8) State.reset).portData.length ≤ 128 ∧
    128 < (ports 0 0 (List.replicate 129 0x01#8) State.reset).portData.length := by decide +kernel

theorem witness_GetDataReturnsThePayload :
    State.reset.pk0.pset = false ∧ ((payload []).pk0.pset = true ∧ (payload []).pk0.plen.toNat = 0) ∧
    ((payload (List.replicate 128 0x01#8)).pk0.pset = true ∧
      (payload (List.replicate 128 0x01#8)).pk0.plen.toNat ≤ 128) := by decide +kernel

/-- A state that rule R16 excludes. -/
def tooLong (a b : Int) : State := ports a b [] { State.reset with pk0 := { Packet.empty with pset := true, plen := 0x81#8 } }

theorem witness_PayloadReadOutsideTheBufferStops :
    (tooLong 0 255).pk0.pset = true ∧ 128 < (tooLong 0 255).pk0.plen.toNat ∧ (0 : Int) ≤ (tooLong 0 255).portA ∧
    (tooLong 0 255).portA ≤ 255 ∧ (0 : Int) ≤ (tooLong 0 255).portB ∧ (tooLong 0 255).portB ≤ 255 := by decide

theorem witness_PayloadStoresTouchOnlyTheirBytes :
    part (fun t => t.pk0.pay.read 1) (exec (.setData 0x00#8) (ports 0 0 [0xAA#8] (payload [0x01#8, 0x02#8]))) =
      some 0x02#8 ∧
    part (fun t => t.pk0.pay.read 2)
      (exec (.setString 0x00#8) (ports 0 0 [0xAA#8] (payload [0x01#8, 0x02#8, 0x03#8]))) = some 0x03#8 ∧
    part (fun t => t.pk0.pay.read 1) (exec (.setInteger1U 0x00#8) (ports 255 0 [] (payload [0x01#8, 0x02#8]))) =
      some 0x02#8 := by decide

theorem witness_SerializerRoundTrips :
    RangeOK 0 1 .U ∧ RangeOK 255 1 .U ∧ RangeOK (-128) 1 .S ∧ RangeOK 127 1 .S ∧ RangeOK (-(2 ^ 63)) 8 .S ∧
    [0xFF#8, 0x7F#8].length = 2 := by decide

theorem witness_IntegersAreLittleEndian : (1 ≤ 8 ∧ 7 < 8) ∧ (0 ≤ 8 ∧ 0 < 8) := by decide

theorem witness_SetIntegerStoresTheEncoding :
    (∀ c ∈ integerSetters, RangeOK (rangeMin c.2.1 c.2.2) c.2.1 c.2.2 ∧ RangeOK (rangeMax c.2.1 c.2.2) c.2.1 c.2.2 ∧
      ¬ RangeOK (rangeMin c.2.1 c.2.2 - 1) c.2.1 c.2.2 ∧ ¬ RangeOK (rangeMax c.2.1 c.2.2 + 1) c.2.1 c.2.2) ∧
    State.reset.pk0.pay.wf 128 = true := by
  refine ⟨?_, by decide⟩
  unfold integerSetters
  simp [RangeOK, rangeMin, rangeMax]

theorem witness_GetIntegerDecodesThePayload :
    (integerGetters.map fun c => c.2.1) = [1, 2, 4, 8, 1, 2, 4, 8] ∧ State.reset.pk0.pset = false ∧
    ((payload []).pk0.pset = true ∧ (payload []).pk0.plen.toNat < 1) ∧
    ((payload [0xFF#8, 0x7F#8]).pk0.plen.toNat < 4 ∧ (payload [0xFF#8, 0x7F#8]).pk0.plen.toNat < 8) ∧
    (payload [0xFF#8, 0x7F#8]).pk0.abs.payload = some [0xFF#8, 0x7F#8] ∧ 2 ≤ [0xFF#8, 0x7F#8].length := by decide

theorem witness_SetThenGetIntegerReturnsTheValue :
    (List.zip integerSetters integerGetters).length = 8 ∧ RangeOK (ports (-128) 0 [] State.reset).portA 1 .S ∧
    State.reset.pk0.pay.wf 128 = true := by decide

theorem witness_SetStringStoresTextAndZero :
    State.reset.pk0.pay.wf 128 = true ∧ (ports 0 0 (List.replicate 127 0x61#8) State.reset).portData.length ≤ 127 ∧
    127 < (ports 0 0 (List.replicate 128 0x61#8) State.reset).portData.length := by decide +kernel

theorem witness_GetStringReturnsTheText :
    State.reset.pk0.pset = false ∧
    ((payload []).pk0.abs.payload = some [] ∧ ([] : List Byte).getLast? ≠ some 0x00#8) ∧
    ((payload [0x00#8, 0x42#8]).pk0.abs.payload = some [0x00#8, 0x42#8] ∧
      [0x00#8, 0x42#8].getLast? ≠ some 0x00#8) ∧
    ((payload [0x00#8]).pk0.abs.payload = some ([] ++ [0x00#8])) := by decide

theorem witness_FrameLayoutIsTheSpecs :
    ([] : List Byte).length ≤ 128 ∧ (List.replicate 128 0xFF#8).length ≤ 128 := by decide +kernel

/-- A bank ready for SEND, the transport's answers and the operands placed. -/
def ready (a b : Int) (answers : List TxAnswer) : State :=
  { ports a b [] (payload [0x41#8]) with laddr := 0x01#8, txAns := answers }

theorem witness_SendWritesTheFrame :
    (sendForms.map fun c => c.2) = [(false, false), (false, true), (true, false), (true, true)] ∧
    (ready 0 255 [.done]).txbuf.wf 134 = true ∧ (ready 0 255 [.done]).pk0.abs.payload = some [0x41#8] ∧
    (0 ≤ (ready 0 255 [.done]).portA ∧ (ready 0 255 [.done]).portA ≤ 255) ∧
    (0 ≤ (ready 0 255 [.done]).portB ∧ (ready 0 255 [.done]).portB ≤ 255) ∧
    (ready 0 255 [.done]).txAns = .done :: [] := by decide

theorem witness_FailedSendWritesAPrefix :
    (ready 255 0 [.ioerr 0]).txbuf.wf 134 = true ∧ (ready 255 0 [.ioerr 0]).pk0.abs.payload = some [0x41#8] ∧
    (0 ≤ (ready 255 0 [.ioerr 0]).portA ∧ (ready 255 0 [.ioerr 0]).portA ≤ 255) ∧
    (0 ≤ (ready 255 0 [.ioerr 0]).portB ∧ (ready 255 0 [.ioerr 0]).portB ≤ 255) ∧
    (ready 255 0 [.ioerr 0]).txAns = .ioerr 0 :: [] ∧ (ready 255 0 [.ioerr 200]).txAns = .ioerr 200 :: [] := by decide

theorem witness_SendFaultsInOrder :
    ((ready (-1) 0 []).portA < 0 ∧ 255 < (ready 256 0 []).portA) ∧
    ((0 ≤ (ready 255 256 []).portA ∧ (ready 255 256 []).portA ≤ 255) ∧ 255 < (ready 255 256 []).portB) ∧
    ((0 ≤ (ports 0 255 [] State.reset).portA ∧ (ports 0 255 [] State.reset).portA ≤ 255) ∧
      (0 ≤ (ports 0 255 [] State.reset).portB ∧ (ports 0 255 [] State.reset).portB ≤ 255) ∧
      (ports 0 255 [] State.reset).pk0.pset = false) := by decide

theorem witness_WaitingSendHoldsTheFrame :
    (∀ answers ∈ [[.pending 0, .done], [.pending 3, .ioerr 0], [.pending 200, .ioerr 200], [.pending 3, .pending 4], []],
      (ready 0 255 answers).txbuf.wf 134 = true ∧ (ready 0 255 answers).resetLine = [] ∧
      (ready 0 255 answers).pk0.abs.payload = some [0x41#8] ∧
      (0 ≤ (ready 0 255 answers).portA ∧ (ready 0 255 answers).portA ≤ 255) ∧
      (0 ≤ (ready 0 255 answers).portB ∧ (ready 0 255 answers).portB ≤ 255)) ∧
    (ready 0 255 [.pending 0, .done]).txAns = .pending 0 :: [.done] ∧
    (ready 0 255 [.pending 3, .ioerr 0]).txAns = .pending 3 :: [.ioerr 0] ∧
    (ready 0 255 [.pending 200, .ioerr 200]).txAns = .pending 200 :: [.ioerr 200] ∧
    (ready 0 255 [.pending 3, .pending 4]).txAns = .pending 3 :: [.pending 4] ∧ (ready 0 255 []).txAns = [] := by decide

theorem witness_TransmitStreamGrowsByFrames :
    (sending.Inv ∧ step sending = .next sending ∧ sending.txs = .emit) ∧
    ((sendingOut 3).Inv ∧ ¬ NoReset { sendingOut 3 with resetLine := [.assert] }) ∧
    part (fun t => t.results) (step { sendingOut 3 with txAns := [.done] }) =
      some ((sendingOut 3).results ++ [⟨codeOk, .ok⟩]) :=
  ⟨⟨inv_sending, rfl, rfl⟩, ⟨inv_sendingOut, fun h => h rfl⟩, by decide⟩

theorem witness_SeekSynTransitions (e : RxEvent) :
    NoReset { seeking with rx := [e] } ∧ { seeking with rx := [e] }.txs = .idle ∧
    { seeking with rx := [e] }.rxs = .seekSyn ∧ { seeking with rx := [e] }.rx = e :: [] ∧
    (RxEvent.byte 0x03#8 = .byte 0x03#8 ∧ (0x03#8 : Byte) ≠ 0x02#8) :=
  ⟨noReset_nil rfl, rfl, rfl, rfl, rfl, by decide⟩

theorem witness_ReadLenTransitions (len : Byte) :
    NoReset { seeking with rxs := .readLen, rx := [.byte len] } ∧
    { seeking with rxs := .readLen, rx := [.byte len] }.txs = .idle ∧
    { seeking with rxs := .readLen, rx := [.byte len] }.rxs = .readLen ∧
    { seeking with rxs := .readLen, rx := [.byte len] }.rx = .byte len :: [] ∧
    ((0x03#8 : Byte).toNat < 4 ∧ 4 ≤ (0x04#8 : Byte).toNat) :=
  ⟨noReset_nil rfl, rfl, rfl, rfl, by decide⟩

/-- A long body at index 130, 131 of `RXBUF`, or at its last byte but one. -/
def longBody (cnt : Byte) : State :=
  { seeking with rxs := .readBody, rxlen := 0xFF#8, rxcnt := cnt, rx := [.byte 0x02#8] }

theorem witness_BodyBytesAreSummedAndStaged :
    NoReset (longBody 0x82#8) ∧ (∀ cnt ∈ [0x00#8, 0x82#8, 0x83#8, 0xFD#8],
      (longBody cnt).txs = .idle ∧ (longBody cnt).rxs = .readBody ∧ (longBody cnt).rx = .byte 0x02#8 :: [] ∧
      (longBody cnt).rxbuf.wf 131 = true ∧ (longBody cnt).rxcnt.toNat < (longBody cnt).rxlen.toNat - 1) :=
  ⟨noReset_nil rfl, by decide⟩

theorem witness_ChecksumMismatchResynchronizes :
    NoReset { lastByte with rx := [.byte 0x6A#8] } ∧ { lastByte with rx := [.byte 0x6A#8] }.txs = .idle ∧
    { lastByte with rx := [.byte 0x6A#8] }.rxs = .readBody ∧
    lastByte.rxcnt.toNat = lastByte.rxlen.toNat - 1 ∧ (0x6A#8 : Byte) ≠ lastByte.rxsum :=
  ⟨noReset_nil rfl, rfl, rfl, by decide, by decide⟩

/-- The last byte of a candidate of this LEN. -/
def lastOf (len : Byte) : State :=
  { seeking with rxs := .readBody, rxlen := len, rxcnt := len - 1, rxsum := 0x07#8, rx := [.byte 0x07#8] }

theorem witness_VerifiedFrameIsMaterialised :
    NoReset (lastOf 0x04#8) ∧ (∀ len ∈ [0x04#8, 0x84#8],
      (lastOf len).txs = .idle ∧ (lastOf len).rxs = .readBody ∧ (lastOf len).rx = .byte (lastOf len).rxsum :: [] ∧
      (lastOf len).rxcnt.toNat = (lastOf len).rxlen.toNat - 1 ∧ 4 ≤ (lastOf len).rxlen.toNat ∧
      (lastOf len).rxlen.toNat ≤ 132 ∧ ((lastOf len).bank (lastOf len).rxk).pay.wf 128 = true) :=
  ⟨noReset_nil rfl, by decide⟩

theorem witness_OversizeFrameFaults :
    NoReset (lastOf 0x85#8) ∧ (∀ len ∈ [0x85#8, 0xFF#8],
      (lastOf len).txs = .idle ∧ (lastOf len).rxs = .readBody ∧ (lastOf len).rx = .byte (lastOf len).rxsum :: [] ∧
      (lastOf len).rxcnt.toNat = (lastOf len).rxlen.toNat - 1 ∧ 132 < (lastOf len).rxlen.toNat) :=
  ⟨noReset_nil rfl, by decide⟩

theorem witness_EndOfStreamInsideAFrame :
    NoReset { lastByte with rx := [.eof] } ∧ { lastByte with rx := [.eof] }.txs = .idle ∧
    { lastByte with rx := [.eof] }.rx = .eof :: [] ∧ lastByte.rxs = .readBody ∧
    { seeking with rxs := .readLen, rx := [.eof] }.rxs = .readLen :=
  ⟨noReset_nil rfl, rfl, rfl, rfl, rfl⟩

theorem witness_ReceiveTransportFailureIsNoPacket :
    NoReset { seeking with rx := [.ioerr] } ∧ { seeking with rx := [.ioerr] }.txs = .idle ∧
    { seeking with rx := [.ioerr] }.rxs ≠ .idle ∧ { seeking with rx := [.ioerr] }.rx = .ioerr :: [] :=
  ⟨noReset_nil rfl, rfl, nofun, rfl⟩

theorem witness_BanksChangeOnlyOnSuccess :
    NoReset { lastByte with rx := [.byte 0x95#8] } ∧ lastByte.txs = .idle ∧ lastByte.rxs ≠ .idle ∧
    bankOf 1 (step { lastByte with rx := [.byte 0x95#8] }) = some packetG ∧
    (lastByte.bank 1).abs ≠ packetG :=
  ⟨noReset_nil rfl, rfl, nofun, by decide, by decide⟩

theorem witness_CompleteFrameIsJudged :
    seeking.rxs = .seekSyn ∧ seeking.rxbuf.wf 131 = true ∧ (seeking.bank seeking.rxk).pay.wf 128 = true ∧
    (∀ c ∈ [(0x04#8, 4), (0x84#8, 132), (0x85#8, 133)],
      4 ≤ c.1.toNat ∧ (List.replicate c.2 (0x00#8 : Byte)).length = c.1.toNat ∧
      chk ((List.replicate c.2 (0x00#8 : Byte)).take (c.1.toNat - 1)) =
        (List.replicate c.2 (0x00#8 : Byte)).getD (c.1.toNat - 1) 0x00#8) ∧
    chk ([0x01#8, 0x02#8, 0x03#8, 0x07#8].take 3) ≠ [0x01#8, 0x02#8, 0x03#8, 0x07#8].getD 3 0x00#8 := by decide +kernel

theorem witness_StagingFollowsTheBody :
    seeking.rxs = .seekSyn ∧ seeking.rxbuf.wf 131 = true ∧ 4 ≤ (0xFF#8 : Byte).toNat ∧
    (List.replicate 254 (0x01#8 : Byte)).length < (0xFF#8 : Byte).toNat ∧ 4 ≤ (0x04#8 : Byte).toNat := by decide +kernel

theorem witness_FrameBytesInTheOtherStates : seeking.rxs = .seekSyn ∧ State.reset.rxs = .idle := by decide

theorem witness_StepsRunTheWireInstruction :
    seeking.resetLine = [] ∧ seeking.txs = .idle ∧ seeking.rxs = .seekSyn ∧
    decodeWire (Config.SYN :: bytesG) = .ok (.frame bytesG, []) ∧
    { seeking with rx := (Config.SYN :: bytesG).map RxEvent.byte }.rx = (Config.SYN :: bytesG).map RxEvent.byte ++ [] := by decide

theorem witness_ReceiveMachineAgreesWithRecv (e : RxEvent) :
    seeking.resetLine = [] ∧ seeking.txs = .idle ∧ seeking.rxs = .seekSyn ∧ (RxEvent.eof = .eof ∨ RxEvent.eof = .ioerr) ∧
    { seeking with rx := (Config.SYN :: bytesG).map RxEvent.byte ++ [e] }.rx = (Config.SYN :: bytesG).map RxEvent.byte ++ e :: [] ∧
    seeking.rxbuf.wf 131 = true ∧ (seeking.bank seeking.rxk).pay.wf 128 = true :=
  ⟨rfl, rfl, rfl, .inl rfl, rfl, rfl, rfl⟩

theorem witness_FrameIsReceivedAsSent :
    (∀ b ∈ [0x00#8, 0xFF#8, 0x41#8, 0x03#8], b ≠ (0x02#8 : Byte)) ∧ ([] : List Byte).length ≤ 128 := by decide

theorem witness_SendThenReceiveCopiesThePacket :
    State.Inv { sending with txAns := [.done] } ∧ sending.resetLine = [] ∧
    (sending.bank 0).abs.payload = some [0x41#8, 0x42#8] ∧
    (0 ≤ sending.portA ∧ sending.portA ≤ 255) ∧ (0 ≤ sending.portB ∧ sending.portB ≤ 255) ∧
    { sending with txAns := [.done] }.txAns = .done :: [] :=
  ⟨inv_sending, rfl, by decide, by decide, by decide, rfl⟩

theorem witness_StatusIsTheLastCompletionCode :
    NoReset (atPort 0x0900#16 0) ∧ ending (step (atPort 0x0900#16 0)) = some (0x03#8, .fault .nodata .none) :=
  ⟨noReset_nil rfl, by decide⟩

theorem witness_FaultsLeaveTheBanksAlone :
    (Instr.getData 0x00#8 ∈ plainBankCommands.map fun c => c 0x00#8) ∧
    part (fun t => t.results) (exec (.getData 0x00#8) State.reset) =
      some (State.reset.results ++ [⟨0x03#8, .fault .nodata .none⟩]) ∧
    (Ending.fault .nodata .none).isFault = true := by decide

/-- The clause about a RECEIVE in progress: a verified candidate of LEN 133. -/
theorem witness_FaultsLeaveTheBanksAlone_receive :
    NoReset (lastOf 0x85#8) ∧ (lastOf 0x85#8).txs = .idle ∧ (lastOf 0x85#8).rxs ≠ .idle ∧
    part (fun t => t.results) (step (lastOf 0x85#8)) =
      some ((lastOf 0x85#8).results ++ [⟨0x02#8, .fault .overflow (.limit 128)⟩]) ∧
    (Ending.fault .overflow (.limit 128)).isFault = true :=
  ⟨noReset_nil rfl, rfl, nofun, by decide, rfl⟩

theorem witness_BanksAreIndependent :
    ((Instr.clear 0x00#8 ∈ bankCommands.map fun c => c 0x00#8) ∧ (1 : BankIx) ≠ 0) ∧
    (NoReset lastByte ∧ lastByte.txs = .idle ∧ lastByte.rxs ≠ .idle ∧ 0 ≠ lastByte.rxk) ∧
    (NoReset sending ∧ sending.txs = .emit) :=
  ⟨by decide, ⟨noReset_nil rfl, rfl, nofun, by decide⟩, noReset_nil rfl, rfl⟩

theorem alike_refl (s : State) (h : s.RxInv) : Alike s s where
  banks _ := rfl
  laddr := rfl
  status := rfl
  results := rfl
  streams := ⟨rfl, rfl, rfl⟩
  ports := ⟨rfl, rfl, rfl, rfl, rfl⟩
  rxs := rfl
  txs := rfl
  rxk _ := rfl
  body hb := ⟨(h hb).1, rfl, rfl, rfl, fun _ _ _ => rfl⟩
  frame _ := ⟨rfl, rfl, rfl, rfl⟩

/-- Two states that differ in a byte no rule can read. -/
theorem witness_UnspecifiedBytesAreNeverRead :
    State.reset.Inv ∧ State.Inv { State.reset with rxsum := 0x55#8, pk0 := { Packet.empty with pay := [(0, 0x55#8)] } } ∧
    Alike State.reset { State.reset with rxsum := 0x55#8, pk0 := { Packet.empty with pay := [(0, 0x55#8)] } } := by
  refine ⟨inv_reset, ⟨?_, by decide, by decide, by decide, .inl rfl, nofun, nofun⟩, ?_⟩
  · unfold Packet.Inv
    decide
  · have h := alike_refl State.reset fun h => nomatch h
    exact { h with banks := by decide, body := nofun, frame := nofun, rxk := fun h => absurd rfl h }

theorem witness_StepKeepsTheInvariant :
    State.Inv { lastByte with rx := [.byte 0x95#8] } ∧ bankOf 1 (step { lastByte with rx := [.byte 0x95#8] }) = some packetG :=
  ⟨inv_lastByte, by decide⟩

theorem witness_TheMachineGoesOn : State.Inv { sending with txAns := [.ioerr 4] } ∧ State.reset.Inv :=
  ⟨inv_sending, inv_reset⟩


end Sys2Proof.Tests
end

section

/-!
PROOFS. Everything a step can do, said once, and the invariant of the machine (O58 and O59).
-/

namespace Sys2Proof.Machine

/-! ## Everything a step can do -/

/-- What an answer of the receive transport does while a RECEIVE is in progress: the engine goes on scanning, begins a body,
takes a body byte, delivers a verified frame, or ends the command without touching a bank. -/
inductive RxEffect (s : State) : State → Prop
  | scans (r : RxState) (h : r = .seekSyn ∨ r = .readLen) : RxEffect s { s with rxs := r }
  | begins (len : Byte) (h : 4 ≤ len.toNat) :
      RxEffect s { s with rxs := .readBody, rxlen := len, rxcnt := 0x00#8, rxsum := 0x00#8 }
  | takes (b : Byte) (h : s.rxs = .readBody) (hc : s.rxcnt.toNat < s.rxlen.toNat - 1) : RxEffect s (bodyByte b s)
  | delivers (h : s.rxs = .readBody) (hl : s.rxlen.toNat ≤ 132) :
      RxEffect s ((s.updBank s.rxk fun p => p.materialize s.rxbuf (payloadLength s.rxlen)).complete codeOk .ok)
  | ends (c : Byte) (e : Ending) (h : e.codeOK c) : RxEffect s (s.complete c e)

theorem seekByte_effect (b : Byte) (s : State) : RxEffect s (seekByte b s) := by
  unfold seekByte
  split
  · exact .scans .readLen (.inr rfl)
  · exact .scans .seekSyn (.inl rfl)

theorem lenByteTaken_effect (len : Byte) (s : State) : RxEffect s (lenByteTaken len s) := by
  unfold lenByteTaken
  split
  · exact .scans .seekSyn (.inl rfl)
  · exact .begins len (Nat.le_of_not_lt ‹_›)

theorem checksumByte_effect (c : Byte) {s : State} (h : s.rxs = .readBody) : RxEffect s (checksumByte c s) := by
  unfold checksumByte
  split
  · exact .scans .seekSyn (.inl rfl)
  · split
    · exact .delivers h ‹_›
    · exact .ends _ (.fault .overflow _) rfl

theorem rxByte_effect (b : Byte) {s : State} (h : s.rxs ≠ .idle) : RxEffect s (rxByte b s) := by
  unfold rxByte
  split
  case h_1 hi => exact absurd hi h
  case h_2 => exact seekByte_effect b s
  case h_3 => exact lenByteTaken_effect b s
  case h_4 hb =>
    split
    · exact .takes b hb ‹_›
    · exact checksumByte_effect b hb

/-- Everything an answer of the receive transport can do. -/
theorem rxEvent_effect (e : RxEvent) {s : State} (h : s.rxs ≠ .idle) : RxEffect s (rxEvent e s) := by
  cases e with
  | byte b => exact rxByte_effect b h
  | eof =>
    obtain ⟨c, he, hc⟩ := rxEvent_eof h
    rw [he]
    exact .ends c .noPacket (List.mem_append_left [codeIoerr] hc)
  | ioerr =>
    rw [rxEvent_ioerr h]
    exact .ends codeIoerr .noPacket (by simp [Ending.codeOK])

/-- What a step of the transmit transport does while a SEND is in progress: nothing, or the next bytes of those not written yet
go out and the SEND goes on, ends with `Ok`, or fails. -/
inductive TxEffect (s : State) : State → Prop
  | waits : TxEffect s s
  | writes (w : List Byte) (hu : s.unsent = some w) (n : Nat) (rest : List TxAnswer) :
      TxEffect s (s.txTaken (w.take n) rest)
  | finishes (w : List Byte) (hu : s.unsent = some w) (rest : List TxAnswer) :
      TxEffect s ((s.txTaken w rest).complete codeOk .ok)
  | fails (w : List Byte) (hu : s.unsent = some w) (n : Nat) (rest : List TxAnswer) :
      TxEffect s ((s.txTaken (w.take n) rest).complete FaultName.transport.code (.fault .transport .none))

/-- Everything a step of the transmit transport that goes on can do. -/
theorem txAnswer_effect {s t : State} (h : txAnswer s = .next t) : TxEffect s t := by
  rcases txAnswer_cases s with ⟨-, hs⟩ | ⟨w, n, rest, -, hu, hs⟩ | ⟨w, rest, -, hu, hs⟩ | ⟨w, n, rest, -, hu, hs⟩ |
    ⟨-, -, hs⟩
  all_goals rw [hs] at h; cases h
  · exact .waits
  · exact .writes w hu n rest
  · exact .finishes w hu rest
  · exact .fails w hu n rest

/-- What a step that goes on can do: reset, wait, a step of the transmit transport, an answer of the receive transport, the
refusal of a command word that is no instruction, or a command. -/
inductive StepEffect (s : State) : State → Prop
  | resets (h : ¬ NoReset s) : StepEffect s s.tick.resetEvent
  | waits (h : NoReset s) (ht : s.txs = .idle) : StepEffect s s.tick
  | transmits {t : State} (h : NoReset s) (ht : s.txs = .emit) (he : TxEffect s.tick t) : StepEffect s t
  | receives {t : State} (h : NoReset s) (ht : s.txs = .idle) (hr : s.rxs ≠ .idle) (rest : List RxEvent)
      (he : RxEffect (s.tick.rxTaken rest) t) : StepEffect s t
  | refuses (h : NoReset s) (hb : Between s) (c : Command) (rest : List Command) :
      StepEffect s (s.tick.issued c rest).illegalCommand
  | runs {t : State} {i : Instr} {c : Command} {rest : List Command} {o : Host.Outcome State Fault Refusal}
      (h : NoReset s) (hb : Between s) (hc : s.cmds = c :: rest) (hd : decodeCommand c.word = .ok i)
      (he : CommandEffect i (s.tick.issued c rest) o) (ho : o = .next t) : StepEffect s t

theorem step_effect {s t : State} (h : step s = .next t) : StepEffect s t := by
  rcases step_cases s with ⟨hr, hs⟩ | ⟨hn, ht, hs⟩ | ⟨hn, ht, hr, hs⟩ | ⟨hn, hb, -, hs⟩ |
    ⟨c, rest, i, hn, hb, hc, hd, hs⟩ | ⟨c, rest, e, hn, hb, -, -, hs⟩
  all_goals rw [hs] at h
  · cases h
    exact .resets fun hn => hn hr
  · exact .transmits hn ht (txAnswer_effect h)
  · cases h
    cases hx : s.rx with
    | nil =>
      rw [rxRead_nil (s := s.tick) hx]
      exact .waits hn ht
    | cons e rest =>
      rw [rxRead_cons (s := s.tick) hx]
      exact .receives hn ht hr rest (rxEvent_effect e hr)
  · cases h
    exact .waits hn hb.2
  · exact .runs hn hb hc hd (exec_effect i _ (decodeCommand_onWire hd)) h
  · cases h
    exact .refuses hn hb c rest

/-! ## The invariant: banks -/

theorem KeepsPayload.keeps_inv {g : Packet → Packet} (h : KeepsPayload g) {p : Packet} (hp : p.Inv) : (g p).Inv := by
  obtain ⟨h1, h2, h3⟩ := h p
  unfold Packet.Inv
  rw [h1, h2, h3]
  exact hp

theorem Packet.Inv.empty : Packet.empty.Inv := ⟨rfl, by decide, fun _ => rfl⟩

theorem Packet.Inv.cleared {p : Packet} (h : p.Inv) : p.cleared.Inv := ⟨h.1, Nat.zero_le _, fun _ => rfl⟩

theorem Packet.Inv.store {p : Packet} (h : p.Inv) {bs : List Byte} (hl : bs.length ≤ 128) : (p.store bs).Inv := by
  refine ⟨Memory.writeN_keeps_wf bs h.1 (by rw [Nat.zero_add]; exact hl), ?_, nofun⟩
  rw [Packet.store_plen, BitVec.toNat_ofNat]
  exact (Nat.mod_le ..).trans hl

theorem Packet.Inv.materialize {p : Packet} (h : p.Inv) (m : Memory) {n : Nat} (hn : n ≤ 128) :
    (p.materialize m n).Inv :=
  Packet.Inv.store (p := { p with dst := m.read 0, src := m.read 1, typ := m.read 2 }) h (by rwa [Memory.readN_length])

theorem Packet.Inv.payload_length {p : Packet} (h : p.Inv) {bs : List Byte} (hb : p.abs.payload = some bs) :
    bs.length ≤ 128 := Packet.abs_payload_length hb ▸ h.2.1

/-! ## The invariant: the state -/

/-- The part of the invariant that speaks of no engine state: every byte space and `PLEN` in range. -/
structure State.Stored (s : State) : Prop where
  banks : ∀ k, (s.bank k).Inv
  rxbuf : s.rxbuf.wf Config.RXBUF_SIZE = true
  txbuf : s.txbuf.wf Config.MAX_FRAME = true

theorem State.Inv.stored {s : State} (h : s.Inv) : s.Stored := ⟨h.1, h.2.1, h.2.2.1⟩

theorem State.Inv.status {s : State} (h : s.Inv) : s.status ∈ completionCodes := h.2.2.2.1

theorem State.Inv.rxInv {s : State} (h : s.Inv) : s.RxInv := h.2.2.2.2.2.1

theorem State.Inv.txInv {s : State} (h : s.Inv) : s.TxInv := h.2.2.2.2.2.2

theorem State.Inv.rxs_of_emit {s : State} (h : s.Inv) (ht : s.txs = .emit) : s.rxs = .idle :=
  h.2.2.2.2.1.resolve_right (by simp [ht])

theorem State.Stored.updBank {s : State} (h : s.Stored) (j : BankIx) {g : Packet → Packet}
    (hg : ∀ p : Packet, p.Inv → (g p).Inv) : (s.updBank j g).Stored where
  banks k := by
    rw [State.bank_updBank]
    split
    · exact hg _ (h.banks j)
    · exact h.banks k
  rxbuf := by rw [State.updBank_rxbuf]; exact h.rxbuf
  txbuf := by rw [State.updBank_txbuf]; exact h.txbuf

theorem State.Stored.txTaken {s : State} (h : s.Stored) (w : List Byte) (rest : List TxAnswer) :
    (s.txTaken w rest).Stored := ⟨h.banks, h.rxbuf, h.txbuf⟩

theorem State.Stored.putLaddr {s : State} (h : s.Stored) (b : Byte) : State.Stored { s with laddr := b } :=
  ⟨h.banks, h.rxbuf, h.txbuf⟩

/-- The invariant of a state in which no SEND is in progress. -/
theorem State.Stored.inv {s : State} (h : s.Stored) (hs : s.status ∈ completionCodes) (ht : s.txs = .idle)
    (hr : s.RxInv) : s.Inv :=
  ⟨h.banks, h.rxbuf, h.txbuf, hs, .inr ht, hr, fun he => nomatch ht.symm.trans he⟩

theorem Ending.codeOK.mem_completionCodes {e : Ending} {c : Byte} (h : e.codeOK c) : c ∈ completionCodes := by
  cases e with
  | fault f info => cases f <;> cases h <;> decide
  | noPacket =>
    have hsub : [codeEofSeek, codeEofLen, codeEofBody, codeIoerr] ⊆ completionCodes := by decide
    exact hsub h
  | ok | okByte _ | okInt _ | okBytes _ => cases h; decide

/-- A command that ends leaves the invariant, whatever the engines were doing. -/
theorem State.Stored.complete_inv {s : State} (h : s.Stored) {c : Byte} {e : Ending} (hc : e.codeOK c) :
    (s.complete c e).Inv :=
  State.Stored.inv ⟨h.banks, h.rxbuf, h.txbuf⟩ hc.mem_completionCodes rfl nofun

/-! ## The invariant: the transmit engine -/

/-- Rule R23: the position after some of the bytes that are left have gone out. -/
theorem State.txTaken_position {s : State} {f : List Byte} (hf : f.length ≤ 134) (hp : s.txpos.toNat ≤ f.length)
    (n : Nat) (rest : List TxAnswer) :
    (s.txTaken ((f.drop s.txpos.toNat).take n) rest).txpos.toNat = min (s.txpos.toNat + n) f.length := by
  rw [State.txTaken_txpos, BitVec.toNat_add, BitVec.toNat_ofNat, List.length_take, List.length_drop]
  omega

theorem State.TxInv.txTaken {s : State} (h : s.TxInv) (hb : ∀ k, (s.bank k).Inv) {w : List Byte}
    (hu : s.unsent = some w) (n : Nat) (rest : List TxAnswer) : (s.txTaken (w.take n) rest).TxInv := by
  intro he
  obtain ⟨k, p, before, hp, hsrc, hload, hpos, htx⟩ := h he
  have hlen := encodeFrame_length (s.bank k).dst s.laddr (s.bank k).typ p
  have hpl := (hb k).payload_length hp
  rw [State.unsent_some hload] at hu
  cases hu
  have hnew := State.txTaken_position (hlen.trans_le (by omega)) (hlen ▸ hpos) n rest
  refine ⟨k, p, before, hp, hsrc, hload, hnew ▸ hlen ▸ Nat.min_le_right .., ?_⟩
  rw [hnew, State.txTaken_tx, htx, List.append_assoc, ← List.take_add]
  exact congrArg (before ++ ·) List.take_eq_take_min

/-- A step of the transmit transport keeps the invariant. -/
theorem TxEffect.keeps_inv {s t : State} (h : TxEffect s t) (hi : s.Inv) (he : s.txs = .emit) : t.Inv := by
  cases h with
  | waits => exact hi
  | writes w hu n rest =>
    have hst := hi.stored.txTaken (w.take n) rest
    exact ⟨hst.banks, hst.rxbuf, hst.txbuf, hi.status, .inl (hi.rxs_of_emit he), hi.rxInv,
      hi.txInv.txTaken hi.stored.banks hu n rest⟩
  | finishes w _ rest => exact (hi.stored.txTaken w rest).complete_inv (e := .ok) rfl
  | fails w _ n rest => exact (hi.stored.txTaken (w.take n) rest).complete_inv (e := .fault .transport .none) rfl

/-- The state in which a SEND hands its frame over meets the invariant. -/
theorem State.Stored.loadFrame_inv {s : State} (h : s.Stored) (hs : s.status ∈ completionCodes) (hr : s.rxs = .idle)
    {k : BankIx} {p : List Byte} (hp : (s.bank k).abs.payload = some p) (hsrc : (s.bank k).src = s.laddr) :
    (s.loadFrame (encodeFrame (s.bank k).dst s.laddr (s.bank k).typ p)).Inv := by
  have hl : (encodeFrame (s.bank k).dst s.laddr (s.bank k).typ p).length ≤ 134 := by
    rw [encodeFrame_length]
    exact Nat.add_le_add_right ((h.banks k).payload_length hp) 6
  refine ⟨h.banks, h.rxbuf, Memory.writeN_keeps_wf _ h.txbuf (by rwa [Nat.zero_add]), hs, .inl hr, ?_, ?_⟩
  · exact fun hb => nomatch hr.symm.trans hb
  · exact fun _ => ⟨k, p, s.tx, hp, hsrc, State.loadedFrame_loadFrame h.txbuf hl, Nat.zero_le _, by simp⟩

/-! ## The invariant: the receive engine -/

/-- Rule R195: a body byte keeps `RXCNT` below `RXLEN` and `RXSUM` the checksum of the bytes staged. -/
theorem State.RxInv.bodyByte {s : State} (h : s.RxInv) (hw : s.rxbuf.wf 131 = true) (hr : s.rxs = .readBody)
    (hc : s.rxcnt.toNat < s.rxlen.toNat - 1) (b : Byte) : (bodyByte b s).RxInv := by
  obtain ⟨h4, -, hsum⟩ := h hr
  have hlt := s.rxlen.isLt
  have hcnt : (Machine.bodyByte b s).rxcnt.toNat = s.rxcnt.toNat + 1 := by
    rw [bodyByte_rxcnt, BitVec.toNat_add]
    simp only [BitVec.reduceToNat]
    omega
  refine fun _ => ⟨h4, by rw [hcnt, bodyByte_rxlen]; omega, fun hsz => ?_⟩
  have hsz' : s.rxcnt.toNat < 131 := by rw [hcnt] at hsz; exact hsz
  rw [hcnt, Memory.readN_snoc, chk_concat, bodyByte_rxsum, hsum (Nat.le_of_lt hsz'), Nat.zero_add,
    bodyByte_read_self b hw hsz']
  congr 2
  exact (Memory.readN_congr _ fun i _ hi => bodyByte_read_ne b (.inl (by omega))).symm

/-- An answer of the receive transport keeps the invariant. -/
theorem RxEffect.keeps_inv {s t : State} (h : RxEffect s t) (hi : s.Inv) (ht : s.txs = .idle) : t.Inv := by
  have hst := hi.stored
  cases h with
  | scans r hr =>
    refine State.Stored.inv ⟨hst.banks, hst.rxbuf, hst.txbuf⟩ hi.status ht fun hb => ?_
    rcases hr with rfl | rfl <;> cases hb
  | begins len h4 =>
    have hpos : 0 < len.toNat := Nat.lt_of_lt_of_le (by decide) h4
    exact State.Stored.inv ⟨hst.banks, hst.rxbuf, hst.txbuf⟩ hi.status ht fun _ => ⟨h4, hpos, fun _ => rfl⟩
  | takes b hr hc =>
    exact State.Stored.inv ⟨hst.banks, bodyByte_keeps_wf b hst.rxbuf, hst.txbuf⟩ hi.status ht
      (hi.rxInv.bodyByte hst.rxbuf hr hc b)
  | delivers hr hl =>
    have hn : payloadLength s.rxlen ≤ 128 := Nat.sub_le_of_le_add hl
    exact (hst.updBank s.rxk fun p hp => hp.materialize s.rxbuf hn).complete_inv rfl
  | ends c e hc => exact hst.complete_inv hc

/-- A command issued between commands keeps the invariant. -/
theorem CommandEffect.keeps_inv {i : Instr} {s t : State} {o : Host.Outcome State Fault Refusal}
    (h : CommandEffect i s o) (ho : o = .next t) (hi : s.Inv) (hb : Between s) : t.Inv := by
  have hst := hi.stored
  cases h with
  | ends c e hc => cases ho; exact hst.complete_inv hc
  | clears j _ => cases ho; exact (hst.updBank j fun _ hp => hp.cleared).complete_inv rfl
  | header j g hg => cases ho; exact (hst.updBank j fun _ => hg.keepsPayload.keeps_inv).complete_inv rfl
  | stores j bs hl => cases ho; exact (hst.updBank j fun _ hp => hp.store hl).complete_inv rfl
  | address _ _ _ => cases ho; exact (hst.putLaddr _).complete_inv rfl
  | receives j _ => cases ho; exact State.Stored.inv ⟨hst.banks, hst.rxbuf, hst.txbuf⟩ hi.status hb.2 nofun
  | sendFaults j g _ hg f info => cases ho; exact (hst.updBank j fun _ => hg.keeps_inv).complete_inv rfl
  | sends j g p _ hg hsrc hp hl =>
    have hload := (hst.updBank j fun _ => hg.keeps_inv).loadFrame_inv (k := j) (p := p)
      (by rw [State.updBank_status]; exact hi.status) (by rw [State.updBank_rxs]; exact hb.1)
      (by
        rw [State.bank_updBank_self, Packet.abs_payload_some, (hg _).1, (hg _).2.1, (hg _).2.2]
        exact Packet.abs_payload_some.1 hp)
      (by rw [State.bank_updBank_self, State.updBank_laddr]; exact hsrc)
    rw [State.bank_updBank_self, State.updBank_laddr] at hload
    exact (txAnswer_effect ho).keeps_inv hload rfl
  | stops _ _ _ => cases ho

/-- Using up a reset sample, and taking an answer of the receive transport or a command with it, keeps the invariant. -/
theorem State.Inv.tick {s : State} (h : s.Inv) : s.tick.Inv := h

theorem State.Inv.rxTaken {s : State} (h : s.Inv) (rest : List RxEvent) : (s.rxTaken rest).Inv := h

theorem State.Inv.issued {s : State} (h : s.Inv) (c : Command) (rest : List Command) : (s.issued c rest).Inv := h

theorem State.Inv.resetEvent (s : State) : s.resetEvent.Inv :=
  State.Stored.inv ⟨fun k => (State.bank_resetEvent s k).symm ▸ Packet.Inv.empty, rfl, rfl⟩
    (show 0x00#8 ∈ completionCodes by decide) rfl nofun

/-- Settles O58: each thing a step can do keeps the invariant. -/
theorem stepKeepsTheInvariant : Obligations.StepKeepsTheInvariant := by
  intro s t hi h
  cases step_effect h with
  | resets _ => exact .resetEvent _
  | waits _ _ => exact hi.tick
  | transmits _ ht he => exact he.keeps_inv hi.tick ht
  | receives _ ht _ rest he => exact he.keeps_inv (hi.tick.rxTaken rest) ht
  | refuses _ _ c rest => exact (hi.tick.issued c rest).stored.complete_inv (e := .fault .illegalCmd .none) rfl
  | runs _ hb _ _ he ho => exact he.keeps_inv ho (hi.tick.issued _ _) hb

/-- Settles O59: the invariant speaks of the block's own registers alone, and these are those of reset. -/
theorem resetMeetsTheInvariant : Obligations.ResetMeetsTheInvariant := by
  intro cmds rx txAns line
  exact State.Inv.resetEvent { State.reset with cmds := cmds, rx := rx, txAns := txAns, resetLine := line }

end Sys2Proof.Machine
end


section

/-!
PROOFS. The frame being written and the growth of the transmit stream (O36).
-/

namespace Sys2Proof.Machine

/-! ## The frame being written -/

theorem State.loadedFrame_eq_some {s : State} {f : List Byte} :
    s.loadedFrame = some f ↔ s.txn.toNat ≤ 134 ∧ s.txbuf.readN 0 s.txn.toNat = f := by
  unfold State.loadedFrame
  by_cases h : s.txn.toNat ≤ 134
  · rw [Memory.readFirst_some h, Option.some_inj]
    exact (and_iff_right h).symm
  · rw [Memory.readFirst_none (Nat.lt_of_not_le h)]
    exact ⟨nofun, fun hf => absurd hf.1 h⟩

theorem State.sentOfFrame_idle {s : State} (h : s.txs = .idle) : s.sentOfFrame = [] := by simp [State.sentOfFrame, h]

/-- Rule R23: while a SEND is in progress, what is out of its frame are the bytes before the position. -/
theorem State.sentOfFrame_emit {s : State} {f : List Byte} (h : s.txs = .emit) (hf : s.loadedFrame = some f) :
    s.sentOfFrame = f.take s.txpos.toNat := by
  obtain ⟨-, rfl⟩ := State.loadedFrame_eq_some.1 hf
  rw [List.take_eq_take_min, Memory.readN_length, Memory.readN_take _ _ (Nat.min_le_right ..)]
  simp [State.sentOfFrame, h]

/-- Rules R43, R49 and R163: from `s` to `t` the next `n` bytes of the frame `f` after its first `m` have gone out, with the
ways in which that can leave the SEND. -/
structure FrameGrowth (s t : State) (f : List Byte) (m n : Nat) : Prop where
  tx : t.tx = s.tx ++ (f.drop m).take n
  after : n = 0 ∨ (m + n = f.length ∧ t.results = s.results ++ [⟨codeOk, .ok⟩]) ∨
    t.results = s.results ++ [⟨FaultName.transport.code, .fault .transport .none⟩] ∨
    (t.txs = .emit ∧ t.results = s.results ∧ t.loadedFrame = some f ∧ t.sentOfFrame = f.take (m + n))
  whole : s.txs = .emit → t.results = s.results ++ [⟨codeOk, .ok⟩] → m + n = f.length

/-- A step that adds nothing to the stream and, where a SEND is in progress, does not end with `Ok`. -/
theorem FrameGrowth.none {s t : State} (f : List Byte) (m : Nat) (htx : t.tx = s.tx)
    (hr : s.txs = .emit → t.results = s.results) : FrameGrowth s t f m 0 :=
  ⟨by rw [htx, List.take_zero, List.append_nil], .inl rfl, fun he h => by simp [hr he] at h⟩

/-- A step of the transmit transport writes the next bytes of the frame, from the position on. -/
theorem TxEffect.growth {s t : State} (h : TxEffect s t) {f : List Byte} (he : s.txs = .emit) (hf : s.loadedFrame = some f)
    (hl : f.length ≤ 134) (hp : s.txpos.toNat ≤ f.length) :
    ∃ n, FrameGrowth s t f s.txpos.toNat n := by
  have hu := State.unsent_some hf
  cases h with
  | waits => exact ⟨0, .none f _ rfl fun _ => rfl⟩
  | writes w hw n rest =>
    cases hu.symm.trans hw
    refine ⟨n, rfl, .inr (.inr (.inr ⟨he, rfl, hf, ?_⟩)), fun _ h => absurd h (by simp)⟩
    rw [State.sentOfFrame_emit (s := s.txTaken _ rest) he hf, State.txTaken_position hl hp]
    exact List.take_eq_take_min.symm
  | finishes w hw rest =>
    cases hu.symm.trans hw
    have hn : s.txpos.toNat + (f.length - s.txpos.toNat) = f.length := Nat.add_sub_of_le hp
    refine ⟨f.length - s.txpos.toNat, ?_, .inr (.inl ⟨hn, rfl⟩), fun _ _ => hn⟩
    rw [List.take_of_length_le (by rw [List.length_drop])]
    rfl
  | fails w hw n rest =>
    cases hu.symm.trans hw
    exact ⟨n, rfl, .inr (.inr (.inl rfl)), fun _ h => absurd h (by simp)⟩

theorem RxEffect.tx {s t : State} (h : RxEffect s t) : t.tx = s.tx := by
  cases h with
  | delivers _ _ => exact State.updBank_tx ..
  | scans _ _ | begins _ _ | takes _ _ _ | ends _ _ _ => rfl

/-- A command writes to the transmit stream only as a SEND, from the start of its frame. -/
theorem CommandEffect.growth {i : Instr} {s t : State} {o : Host.Outcome State Fault Refusal}
    (h : CommandEffect i s o) (ho : o = .next t) (hi : s.Inv) (ht : s.txs = .idle) :
    ∃ dst src typ p n, p.length ≤ 128 ∧ FrameGrowth s t (encodeFrame dst src typ p) 0 n := by
  have quiet : t.tx = s.tx → ∃ dst src typ p n, p.length ≤ 128 ∧ FrameGrowth s t (encodeFrame dst src typ p) 0 n :=
    fun htx => ⟨0, 0, 0, [], 0, Nat.zero_le _, .none _ _ htx fun he => nomatch ht.symm.trans he⟩
  cases h with
  | sends j g p _ hg hsrc hp hl =>
    have hlen : (encodeFrame (g (s.bank j)).dst s.laddr (g (s.bank j)).typ p).length ≤ 134 := by
      rw [encodeFrame_length]
      exact Nat.add_le_add_right hl 6
    have hw : (s.updBank j g).txbuf.wf 134 = true := by rw [State.updBank_txbuf]; exact hi.stored.txbuf
    obtain ⟨n, htx, hafter, -⟩ :=
      (txAnswer_effect ho).growth rfl (State.loadedFrame_loadFrame hw hlen) hlen (Nat.zero_le _)
    rw [State.loadFrame_tx, State.updBank_tx] at htx
    rw [State.loadFrame_results, State.updBank_results] at hafter
    exact ⟨_, _, _, p, n, hl, htx, hafter, fun he => nomatch ht.symm.trans he⟩
  | clears j _ | header j g _ | stores j bs _ | sendFaults j g _ _ f info => cases ho; exact quiet (State.updBank_tx ..)
  | ends c e _ | address _ _ _ | receives j _ => cases ho; exact quiet rfl
  | stops _ _ _ => cases ho

/-- Where no SEND is in progress, a step writes to the transmit stream only as the SEND just issued. -/
theorem step_growth_idle {s t : State} (hi : s.Inv) (ht : s.txs = .idle) (h : step s = .next t) :
    ∃ dst src typ p n, p.length ≤ 128 ∧ FrameGrowth s t (encodeFrame dst src typ p) 0 n ∧ (¬ NoReset s → n = 0) := by
  have quiet : t.tx = s.tx → ∃ dst src typ p n, p.length ≤ 128 ∧ FrameGrowth s t (encodeFrame dst src typ p) 0 n ∧
      (¬ NoReset s → n = 0) :=
    fun htx => ⟨0, 0, 0, [], 0, Nat.zero_le _, .none _ _ htx (fun he => nomatch ht.symm.trans he), fun _ => rfl⟩
  cases step_effect h with
  | resets _ | waits _ _ | refuses _ _ _ _ => exact quiet rfl
  | transmits _ he _ => exact nomatch ht.symm.trans he
  | receives _ _ _ _ he => exact quiet he.tx
  | runs hn _ _ _ he ho =>
    obtain ⟨dst, src, typ, p, n, hl, hg⟩ := he.growth ho (hi.tick.issued _ _) ht
    exact ⟨dst, src, typ, p, n, hl, ⟨hg.tx, hg.after, hg.whole⟩, fun hr => absurd hn hr⟩

/-- While a SEND is in progress, a step that is no reset is one of the transmit transport. -/
theorem step_growth_emit {s t : State} {f : List Byte} (he : s.txs = .emit) (hf : s.loadedFrame = some f)
    (hl : f.length ≤ 134) (hp : s.txpos.toNat ≤ f.length) (h : step s = .next t) :
    ∃ n, FrameGrowth s t f s.txpos.toNat n ∧ (¬ NoReset s → n = 0) := by
  cases step_effect h with
  | resets _ => exact ⟨0, .none f _ rfl fun _ => rfl, fun _ => rfl⟩
  | transmits hn _ ht =>
    obtain ⟨n, hg⟩ := ht.growth he hf hl hp
    exact ⟨n, ⟨hg.tx, hg.after, hg.whole⟩, fun hr => absurd hn hr⟩
  | waits _ ht | receives _ ht _ _ _ => exact nomatch ht.symm.trans he
  | refuses _ hb _ _ | runs _ hb _ _ _ _ => exact nomatch hb.2.symm.trans he

/-- Settles O36: what goes out is the rest of the loaded frame from the position on, or the start of the frame that the SEND
just issued has loaded; every other step adds nothing. -/
theorem transmitStreamGrowsByFrames : Obligations.TransmitStreamGrowsByFrames := by
  intro s t hi h
  cases ht : s.txs with
  | idle =>
    obtain ⟨dst, src, typ, p, n, hl, hg, hr⟩ := step_growth_idle hi ht h
    refine ⟨dst, src, typ, p, n, hl, nofun, ?_⟩
    rw [State.sentOfFrame_idle ht, ← encodeFrame_length dst src typ p]
    exact ⟨rfl, hg.tx, hg.after, nofun, hr⟩
  | emit =>
    obtain ⟨k, p, before, hpay, -, hf, hp, -⟩ := hi.txInv ht
    have hl := (hi.stored.banks k).payload_length hpay
    have hlen := encodeFrame_length (s.bank k).dst s.laddr (s.bank k).typ p
    have hp' := hlen ▸ hp
    obtain ⟨n, hg, hr⟩ := step_growth_emit ht hf (hlen.trans_le (Nat.add_le_add_right hl 6)) hp' h
    refine ⟨(s.bank k).dst, s.laddr, (s.bank k).typ, p, n, hl, fun _ => hf, ?_⟩
    rw [State.sentOfFrame_emit ht hf, List.length_take_of_le hp', ← hlen]
    exact ⟨rfl, hg.tx, hg.after, fun _ => hg.whole ht, hr⟩

end Sys2Proof.Machine
end


section

/-!
PROOFS. Two runs of one command, and the independence of the banks (O56).
-/

namespace Sys2Proof.Machine

/-! ## What the host sees of a bank after it is written -/

theorem Packet.store_abs_eq {p : Packet} (h : p.pay.wf 128 = true) {bs : List Byte} (hl : bs.length ≤ 128) :
    (p.store bs).abs = ⟨p.src, p.dst, p.typ, some bs⟩ := by
  rw [← Packet.store_abs h hl]
  rfl

/-- Rule R191: the bank that a verified frame is delivered to holds that frame's packet, whatever it held before. -/
theorem Packet.materialize_abs {p : Packet} (h : p.pay.wf 128 = true) (m : Memory) {n : Nat} (hn : n ≤ 128) :
    (p.materialize m n).abs = ⟨m.read 1, m.read 0, m.read 2, some (m.readN 3 n)⟩ :=
  Packet.store_abs_eq (p := { p with dst := m.read 0, src := m.read 1, typ := m.read 2 }) h (by rwa [Memory.readN_length])

section
variable {p p' : Packet} (h : p'.abs = p.abs)
include h

theorem Packet.src_of_abs : p'.src = p.src := congrArg AbsPacket.src h

theorem Packet.dst_of_abs : p'.dst = p.dst := congrArg AbsPacket.dst h

theorem Packet.typ_of_abs : p'.typ = p.typ := congrArg AbsPacket.typ h

theorem Packet.pset_of_abs : p'.pset = p.pset := by
  have := congrArg (Option.isSome ∘ AbsPacket.payload) h
  cases hs : p.pset <;> cases hs' : p'.pset <;> simp_all [Packet.abs]

/-- Banks that look the same hold the same payload bytes, where a payload is set. -/
theorem Packet.bytes_of_abs (hs : p.pset = true) :
    p'.plen = p.plen ∧ p'.pay.readN 0 p.plen.toNat = p.pay.readN 0 p.plen.toNat := by
  have hp : p.abs.payload = some (p.pay.readN 0 p.plen.toNat) := Packet.abs_payload_some.2 ⟨hs, rfl⟩
  have hp' : p'.abs.payload = some (p.pay.readN 0 p.plen.toNat) := by rw [h, hp]
  have hl : p'.plen = p.plen := BitVec.eq_of_toNat_eq (by rw [Packet.abs_payload_length hp', Memory.readN_length])
  exact ⟨hl, hl ▸ (Packet.abs_payload_some.1 hp').2⟩

end

/-- What a command writes to the bank it names: CLEAR, a header byte, or a payload of at most 128 bytes. -/
inductive BankWrite : (Packet → Packet) → Prop
  | cleared : BankWrite Packet.cleared
  | header {g : Packet → Packet} (h : WritesHeader g) : BankWrite g
  | stored (bs : List Byte) (h : bs.length ≤ 128) : BankWrite fun p => p.store bs

theorem BankWrite.keeps_inv {g : Packet → Packet} (h : BankWrite g) {p : Packet} (hp : p.Inv) : (g p).Inv := by
  cases h with
  | cleared => exact hp.cleared
  | header hg => exact hg.keepsPayload.keeps_inv hp
  | stored bs hl => exact hp.store hl

/-- Banks that look the same look the same after the same write. -/
theorem BankWrite.abs_congr {g : Packet → Packet} (h : BankWrite g) {p p' : Packet} (hp : p.Inv) (hp' : p'.Inv)
    (he : p'.abs = p.abs) : (g p').abs = (g p).abs := by
  cases h with
  | cleared => rfl
  | header hg =>
    obtain ⟨b, rfl | rfl | rfl⟩ := hg
    · exact congrArg (fun a => { a with src := b }) he
    · exact congrArg (fun a => { a with dst := b }) he
    · exact congrArg (fun a => { a with typ := b }) he
  | stored bs hl =>
    rw [Packet.store_abs_eq hp.1 hl, Packet.store_abs_eq hp'.1 hl, Packet.src_of_abs he, Packet.dst_of_abs he,
      Packet.typ_of_abs he]

/-! ## Two runs of one command -/

/-- Two outcomes of the same kind: next states in relation `Q`, or the same stop. -/
inductive OutcomesRel (Q : State → State → Prop) :
    Host.Outcome State Fault Refusal → Host.Outcome State Fault Refusal → Prop
  | next {t t' : State} (h : Q t t') : OutcomesRel Q (.next t) (.next t')
  | fault (f : Fault) : OutcomesRel Q (.fault f) (.fault f)
  | refused (r : Refusal) : OutcomesRel Q (.refused r) (.refused r)

theorem OutcomesRel.eq_onNext {f : State → State} {o o' : Host.Outcome State Fault Refusal}
    (h : OutcomesRel (fun t t' => t' = f t) o o') : o' = onNext f o := by
  cases h with
  | next h => rw [h, onNext_next]
  | fault _ | refused _ => rfl

theorem OutcomesRel.alikeOutcomes {o o' : Host.Outcome State Fault Refusal} (h : OutcomesRel Alike o o') :
    AlikeOutcomes o o' := by
  cases h with
  | next h => exact h
  | fault _ | refused _ => rfl

/-- A step of the transmit transport reads only what the transport says and the bytes not written yet. -/
theorem OutcomesRel.txAnswer {Q : State → State → Prop} {s s' : State} (ha : s'.txAns = s.txAns)
    (hu : s'.unsent = s.unsent) (h : Q s s') (htaken : ∀ w rest, Q (s.txTaken w rest) (s'.txTaken w rest))
    (hends : ∀ t t', Q t t' → ∀ c e, Q (t.complete c e) (t'.complete c e)) :
    OutcomesRel Q (txAnswer s) (txAnswer s') := by
  unfold Machine.txAnswer
  rw [ha, hu]
  cases s.txAns with
  | nil => exact .next h
  | cons a rest =>
    cases s.unsent with
    | none => exact .fault _
    | some f =>
      cases a with
      | pending n => exact .next (htaken _ _)
      | done => exact .next (hends _ _ (htaken _ _) _ _)
      | ioerr n => exact .next (hends _ _ (htaken _ _) _ _)

/-- What makes two runs of any command on bank `j` agree: the two states before it, in relation `R`, agree on the ports, on
`LADDR` and on what bank `j` looks like, stay in `R` when bank `j` is written, and go over into `Q` when the command ends,
starts a RECEIVE or hands a frame to the transmit engine. -/
structure BankSimulation (j : BankIx) (R Q : State → State → Prop) : Prop where
  ports : ∀ {s s'}, R s s' → s'.portA = s.portA ∧ s'.portB = s.portB ∧ s'.portData = s.portData
  laddr : ∀ {s s'}, R s s' → s'.laddr = s.laddr
  abs : ∀ {s s'}, R s s' → (s'.bank j).abs = (s.bank j).abs
  writes : ∀ {s s'}, R s s' → ∀ {g}, BankWrite g → R (s.updBank j g) (s'.updBank j g)
  ends : ∀ {s s'}, R s s' → ∀ c e, Q (s.complete c e) (s'.complete c e)
  receives : ∀ {s s'}, R s s' → Q (s.startReceive j) (s'.startReceive j)
  transmits : ∀ {s s'}, R s s' → ∀ f : List Byte, f.length ≤ 134 →
    OutcomesRel Q (txAnswer (s.loadFrame f)) (txAnswer (s'.loadFrame f))

theorem OutcomesRel.withBank {Q : State → State → Prop} {j : BankIx} {s s' : State}
    {act act' : BankIx → Host.Outcome State Fault Refusal} (h : OutcomesRel Q (act j) (act' j)) :
    OutcomesRel Q (withBank (bankField j) s act) (withBank (bankField j) s' act') := by
  rwa [withBank_bankField, withBank_bankField]

namespace BankSimulation

variable {j : BankIx} {R Q : State → State → Prop} (S : BankSimulation j R Q) {s s' : State} (h : R s s')
include S h

theorem clear : OutcomesRel Q (exec (.clear (bankField j)) s) (exec (.clear (bankField j)) s') := by
  rw [exec_clear, exec_clear]
  exact .withBank (.next (S.ends (S.writes h .cleared) codeOk .ok))

theorem setHeader {put : Byte → Packet → Packet} (hp : ∀ b, WritesHeader (put b)) :
    OutcomesRel Q (setHeaderByte put (bankField j) s) (setHeaderByte put (bankField j) s') := by
  refine .withBank ?_
  unfold storeCheckedByte
  rw [(S.ports h).1]
  split
  · exact .next (S.ends (S.writes h (.header (hp _))) codeOk .ok)
  · exact .next (S.ends h _ _)

theorem getHeader {get : Packet → Byte} (hg : get (s'.bank j) = get (s.bank j)) :
    OutcomesRel Q (getHeaderByte get (bankField j) s) (getHeaderByte get (bankField j) s') := by
  refine .withBank ?_
  rw [hg]
  exact .next (S.ends h _ _)

theorem storePayload (bs : List Byte) :
    OutcomesRel Q (.next (storePayload j bs s)) (.next (storePayload j bs s')) := by
  by_cases hl : bs.length ≤ 128
  · rw [storePayload_ok j s hl, storePayload_ok j s' hl]
    exact .next (S.ends (S.writes h (.stored bs hl)) codeOk .ok)
  · rw [storePayload_overflow j s (Nat.lt_of_not_le hl), storePayload_overflow j s' (Nat.lt_of_not_le hl)]
    exact .next (S.ends h _ _)

theorem setData : OutcomesRel Q (exec (.setData (bankField j)) s) (exec (.setData (bankField j)) s') := by
  rw [exec_setData, exec_setData, (S.ports h).2.2]
  exact .withBank (S.storePayload h _)

theorem setString : OutcomesRel Q (exec (.setString (bankField j)) s) (exec (.setString (bankField j)) s') := by
  rw [exec_setString, exec_setString, (S.ports h).2.2]
  exact .withBank (S.storePayload h _)

theorem setInteger (n : Nat) (sg : Sign) :
    OutcomesRel Q (setInteger n sg (bankField j) s) (setInteger n sg (bankField j) s') := by
  refine .withBank ?_
  rw [(S.ports h).1]
  split
  · exact S.storePayload h _
  · exact .next (S.ends h _ _)

/-- A command that reads the payload reads `PLEN` bytes of it. -/
theorem readPayload {use use' : List Byte → State} (hu : ∀ p, Q (use p) (use' p)) :
    OutcomesRel Q (readPayload j s use) (readPayload j s' use') := by
  have habs := S.abs h
  have hset := Packet.pset_of_abs habs
  cases hs : (s.bank j).pset with
  | false =>
    rw [readPayload_unset use hs, readPayload_unset use' (hset.trans hs)]
    exact .next (S.ends h _ _)
  | true =>
    obtain ⟨hlen, hbytes⟩ := Packet.bytes_of_abs habs hs
    by_cases hl : (s.bank j).plen.toNat ≤ 128
    · rw [readPayload_set use hs hl, readPayload_set use' (hset.trans hs) (hlen ▸ hl), hlen, hbytes]
      exact .next (hu _)
    · have hl' := Nat.lt_of_not_le hl
      rw [readPayload_stops use hs hl', readPayload_stops use' (hset.trans hs) (hlen ▸ hl')]
      exact .fault _

theorem getData : OutcomesRel Q (exec (.getData (bankField j)) s) (exec (.getData (bankField j)) s') := by
  rw [exec_getData, exec_getData]
  exact .withBank (S.readPayload h fun _ => S.ends h _ _)

theorem getString : OutcomesRel Q (exec (.getString (bankField j)) s) (exec (.getString (bankField j)) s') := by
  rw [exec_getString, exec_getString]
  refine .withBank (S.readPayload h fun p => ?_)
  split
  · exact S.ends h _ _
  · exact S.ends h _ _

theorem getInteger {n : Nat} (hn : n ≤ 128) (sg : Sign) :
    OutcomesRel Q (getInteger n sg (bankField j) s) (getInteger n sg (bankField j) s') := by
  have habs := S.abs h
  rw [getInteger_bank hn, getInteger_bank hn, Packet.pset_of_abs habs]
  split
  next hs =>
    obtain ⟨hlen, hbytes⟩ := Packet.bytes_of_abs habs hs
    rw [hlen]
    split
    next => exact .next (S.ends h _ _)
    next hl =>
      have hfirst : (s'.bank j).pay.readN 0 n = (s.bank j).pay.readN 0 n := by
        rw [← Memory.readN_take _ 0 (Nat.le_of_not_lt hl), hbytes, Memory.readN_take _ 0 (Nat.le_of_not_lt hl)]
      rw [hfirst]
      exact .next (S.ends h _ _)
  next => exact .next (S.ends h _ _)

theorem receive : OutcomesRel Q (exec (.receive (bankField j)) s) (exec (.receive (bankField j)) s') := by
  rw [exec_receive, exec_receive]
  exact .withBank (.next (S.receives h))

/-- The last part of a SEND: the frame is built from what bank `j` looks like and `LADDR`. -/
theorem sendStamped : OutcomesRel Q (sendStamped j s) (sendStamped j s') := by
  have hladdr := S.laddr h
  have habs := S.abs h
  have hset := Packet.pset_of_abs habs
  have hw := S.writes h (.header ⟨s.laddr, .inl rfl⟩)
  cases hs : (s.bank j).pset with
  | false =>
    rw [sendStamped_unset hs, sendStamped_unset (hset.trans hs), hladdr]
    exact .next (S.ends hw _ _)
  | true =>
    obtain ⟨hlen, -⟩ := Packet.bytes_of_abs habs hs
    by_cases hl : (s.bank j).plen.toNat ≤ 128
    · have hp : (s.bank j).abs.payload = some ((s.bank j).pay.readN 0 (s.bank j).plen.toNat) :=
        Packet.abs_payload_some.2 ⟨hs, rfl⟩
      have hpl : ((s.bank j).pay.readN 0 (s.bank j).plen.toNat).length ≤ 128 := by rwa [Memory.readN_length]
      rw [sendStamped_set hp hpl, sendStamped_set (habs ▸ hp) hpl, hladdr, Packet.dst_of_abs habs, Packet.typ_of_abs habs]
      exact S.transmits hw _ (by rw [encodeFrame_length]; exact Nat.add_le_add_right hpl 6)
    · have hl' := Nat.lt_of_not_le hl
      rw [sendStamped_stops hs hl', sendStamped_stops (hset.trans hs) (hlen ▸ hl')]
      exact .fault _

/-- An optional operand of SEND, and what follows it. -/
theorem overwriteHeader (given : Bool) (v : Int) {put : Byte → Packet → Packet} (hp : ∀ b, WritesHeader (put b))
    {act act' : State → Host.Outcome State Fault Refusal} (hn : ∀ t t', R t t' → OutcomesRel Q (act t) (act' t')) :
    OutcomesRel Q
      (match overwriteHeader given v put j s with
        | .error e => .next e
        | .ok t => act t)
      (match overwriteHeader given v put j s' with
        | .error e => .next e
        | .ok t => act' t) := by
  cases given with
  | false => exact hn _ _ h
  | true =>
    by_cases hv : RangeOK v 1 .U
    · rw [overwriteHeader_ok put j s hv, overwriteHeader_ok put j s' hv]
      exact hn _ _ (S.writes h (.header (hp _)))
    · rw [overwriteHeader_range put j s hv, overwriteHeader_range put j s' hv]
      exact .next (S.ends h _ _)

theorem send (d t : Bool) : OutcomesRel Q (sendForm d t (bankField j) s) (sendForm d t (bankField j) s') := by
  refine .withBank ?_
  rw [(S.ports h).1, (S.ports h).2.1]
  exact S.overwriteHeader h d _ (fun b => ⟨b, .inr (.inl rfl)⟩) fun _ _ h1 =>
    S.overwriteHeader h1 t _ (fun b => ⟨b, .inr (.inr rfl)⟩) fun _ _ h2 => S.sendStamped h2

/-- Two runs of any command on bank `j` agree. -/
theorem exec : ∀ c ∈ bankCommands, OutcomesRel Q (exec (c (bankField j)) s) (exec (c (bankField j)) s') := by
  have habs := S.abs h
  simp only [bankCommands, plainBankCommands, List.cons_append, List.nil_append, List.forall_mem_cons]
  exact ⟨S.clear h, S.setHeader h fun b => ⟨b, .inl rfl⟩, S.setHeader h fun b => ⟨b, .inr (.inl rfl)⟩,
    S.setHeader h fun b => ⟨b, .inr (.inr rfl)⟩, S.getHeader h (Packet.src_of_abs habs),
    S.getHeader h (Packet.dst_of_abs habs), S.getHeader h (Packet.typ_of_abs habs), S.setData h, S.getData h,
    S.setString h, S.getString h, S.receive h,
    S.setInteger h 1 .U, S.setInteger h 2 .U, S.setInteger h 4 .U, S.setInteger h 8 .U,
    S.setInteger h 1 .S, S.setInteger h 2 .S, S.setInteger h 4 .S, S.setInteger h 8 .S,
    S.getInteger h (n := 1) (by decide) .U, S.getInteger h (n := 2) (by decide) .U,
    S.getInteger h (n := 4) (by decide) .U, S.getInteger h (n := 8) (by decide) .U,
    S.getInteger h (n := 1) (by decide) .S, S.getInteger h (n := 2) (by decide) .S,
    S.getInteger h (n := 4) (by decide) .S, S.getInteger h (n := 8) (by decide) .S,
    S.send h false false, S.send h false true, S.send h true false, S.send h true true, nofun⟩

end BankSimulation

/-! ## Independence of the banks -/

theorem txAnswer_setBank (s : State) (k : BankIx) (p : Packet) :
    txAnswer (s.setBank k p) = onNext (fun t => t.setBank k p) (txAnswer s) := by
  refine OutcomesRel.eq_onNext (.txAnswer (State.setBank_txAns ..) (State.unsent_setBank ..) rfl ?_ ?_)
  · exact fun w rest => State.txTaken_setBank ..
  · rintro t _ rfl c e
    exact State.complete_setBank ..

/-- Replacing the contents of a bank other than `j` is a simulation of the commands on bank `j`. -/
theorem BankSimulation.setBank {j k : BankIx} (hk : k ≠ j) (p : Packet) :
    BankSimulation j (fun t t' => t' = t.setBank k p) (fun t t' => t' = t.setBank k p) where
  ports := by rintro s _ rfl; simp
  laddr := by rintro s _ rfl; simp
  abs := by rintro s _ rfl; rw [State.bank_setBank_ne s p hk.symm]
  writes := by rintro s _ rfl g -; exact State.updBank_setBank_ne s hk g p
  ends := by rintro s _ rfl c e; exact State.complete_setBank ..
  receives := by rintro s _ rfl; exact State.startReceive_setBank ..
  transmits := by
    rintro s _ rfl f -
    rw [State.loadFrame_setBank, txAnswer_setBank]
    cases txAnswer (s.loadFrame f) with
    | next t => exact .next rfl
    | fault x => exact .fault x
    | refused r => exact .refused r

theorem checksumByte_setBank (c : Byte) (s : State) {k : BankIx} (p : Packet) (h : k ≠ s.rxk) :
    checksumByte c (s.setBank k p) = (checksumByte c s).setBank k p := by
  unfold checksumByte
  simp only [State.setBank_rxsum, State.setBank_rxlen, State.setBank_rxk, State.setBank_rxbuf]
  split
  · unfold State.setBank; split <;> rfl
  · split
    · rw [State.updBank_setBank_ne s h, State.finish_setBank]
    · exact State.complete_setBank ..

/-- A byte taken by a RECEIVE on another bank leaves bank `k` alone and does not read it. -/
theorem rxByte_setBank (b : Byte) (s : State) {k : BankIx} (p : Packet) (h : k ≠ s.rxk) :
    rxByte b (s.setBank k p) = (rxByte b s).setBank k p := by
  have moved : ∀ r, { s.setBank k p with rxs := r } = State.setBank { s with rxs := r } k p := fun r => by
    unfold State.setBank; split <;> rfl
  unfold rxByte
  rw [State.setBank_rxs, State.setBank_rxcnt, State.setBank_rxlen]
  split
  · rfl
  · unfold seekByte
    split
    · exact moved _
    · exact moved _
  · unfold lenByteTaken
    split
    · exact moved _
    · unfold State.setBank; split <;> rfl
  · split
    · exact bodyByte_setBank ..
    · exact checksumByte_setBank b s p h

theorem rxEvent_setBank (e : RxEvent) (s : State) {k : BankIx} (p : Packet) (h : k ≠ s.rxk) :
    rxEvent e (s.setBank k p) = (rxEvent e s).setBank k p := by
  cases e with
  | byte b => exact rxByte_setBank b s p h
  | eof =>
    simp only [rxEvent, rxEof, State.setBank_rxs]
    split
    · rfl
    all_goals exact State.noPacket_setBank ..
  | ioerr =>
    simp only [rxEvent, rxIoerr, State.setBank_rxs]
    split
    · rfl
    all_goals exact State.noPacket_setBank ..

theorem rxRead_setBank (s : State) {k : BankIx} (p : Packet) (h : k ≠ s.rxk) :
    rxRead (s.setBank k p) = (rxRead s).setBank k p := by
  have hx := State.setBank_rx s k p
  cases hr : s.rx with
  | nil => rw [rxRead_nil hr, rxRead_nil (hx.trans hr)]
  | cons e rest =>
    rw [rxRead_cons hr, rxRead_cons (hx.trans hr), State.rxTaken_setBank]
    exact rxEvent_setBank e (s.rxTaken rest) p h

theorem NoReset.setBank {s : State} (h : NoReset s) (k : BankIx) (p : Packet) : NoReset (s.setBank k p) := by
  unfold NoReset
  rwa [State.setBank_resetLine]

/-- Settles O56: replacing another bank is a simulation of every command on bank `j`, and no answer of a transport reads a
bank that is not in use. -/
theorem banksAreIndependent : Obligations.BanksAreIndependent := by
  refine ⟨fun c hc s j k p hk => ?_, fun s k p hn ht hr hk => ?_, fun s k p hn ht => ?_⟩
  · exact ((BankSimulation.setBank hk p).exec rfl c hc).eq_onNext
  · rw [step_noReset hn, step_noReset (hn.setBank k p), State.tick_setBank, advance_receive (s := s.tick) ht hr,
      advance_receive (by simpa using ht) (by simpa using hr), rxRead_setBank s.tick p hk]
    rfl
  · rw [step_noReset hn, step_noReset (hn.setBank k p), State.tick_setBank, advance_emit (s := s.tick) ht,
      advance_emit (by simpa using ht), txAnswer_setBank]

end Sys2Proof.Machine
end


section

/-!
PROOFS. States that cannot be told apart stay so in every step (O57).
-/

namespace Sys2Proof.Machine

/-! ## The last body byte -/

theorem checksumByte_mismatch {s : State} {c : Byte} (h : c ≠ s.rxsum) :
    checksumByte c s = { s with rxs := .seekSyn } := if_pos h

theorem checksumByte_verified {s : State} (h : s.rxlen.toNat ≤ 132) : checksumByte s.rxsum s =
    (s.updBank s.rxk fun p => p.materialize s.rxbuf (payloadLength s.rxlen)).complete codeOk .ok :=
  (if_neg (fun hc => hc rfl)).trans (if_pos h)

theorem checksumByte_oversize {s : State} (h : ¬ s.rxlen.toNat ≤ 132) : checksumByte s.rxsum s = s.raiseOverflow :=
  (if_neg (fun hc => hc rfl)).trans (if_neg h)

/-! ## States that cannot be told apart: the small updates -/

namespace Alike

variable {s s' : State} (h : Alike s s')
include h

theorem rx : s'.rx = s.rx := h.streams.1

theorem tx : s'.tx = s.tx := h.streams.2.1

theorem txAns : s'.txAns = s.txAns := h.streams.2.2

theorem cmds : s'.cmds = s.cmds := h.ports.1

theorem portA : s'.portA = s.portA := h.ports.2.1

theorem portB : s'.portB = s.portB := h.ports.2.2.1

theorem portData : s'.portData = s.portData := h.ports.2.2.2.1

theorem resetLine : s'.resetLine = s.resetLine := h.ports.2.2.2.2

theorem unsent (he : s.txs = .emit) : s'.unsent = s.unsent := by
  obtain ⟨hf, -, hpos, -⟩ := h.frame he
  unfold State.unsent
  rw [hf, hpos]

theorem tick : Alike s.tick s'.tick :=
  { h with ports := ⟨h.cmds, h.portA, h.portB, h.portData, congrArg List.tail h.resetLine⟩ }

theorem issued (c : Command) (rest : List Command) : Alike (s.issued c rest) (s'.issued c rest) :=
  { h with ports := ⟨rfl, rfl, rfl, rfl, h.resetLine⟩ }

theorem rxTaken (rest : List RxEvent) : Alike (s.rxTaken rest) (s'.rxTaken rest) :=
  { h with streams := ⟨rfl, h.tx, h.txAns⟩ }

theorem txTaken (w : List Byte) (rest : List TxAnswer) : Alike (s.txTaken w rest) (s'.txTaken w rest) :=
  { h with
    streams := ⟨h.rx, congrArg (· ++ w) h.tx, rfl⟩
    frame := fun he => by
      obtain ⟨hf, hn, hpos, hb⟩ := h.frame he
      exact ⟨hf, hn, congrArg (· + BitVec.ofNat 8 w.length) hpos, hb⟩ }

/-- A command that ends leaves no live register behind. -/
theorem complete (c : Byte) (e : Ending) : Alike (s.complete c e) (s'.complete c e) :=
  { h with
    status := rfl
    results := congrArg (· ++ [(⟨c, e⟩ : Completion)]) h.results
    rxs := rfl
    txs := rfl
    rxk := fun hr => absurd rfl hr
    body := nofun
    frame := nofun }

theorem resetEvent : Alike s.resetEvent s'.resetEvent :=
  { h with
    banks := fun k => by rw [State.bank_resetEvent, State.bank_resetEvent]
    laddr := rfl
    status := rfl
    rxs := rfl
    txs := rfl
    rxk := fun hr => absurd rfl hr
    body := nofun
    frame := nofun }

theorem putLaddr {b b' : Byte} (hb : b' = b) : Alike { s with laddr := b } { s' with laddr := b' } := { h with laddr := hb }

/-- The two states may write a bank in different ways, as long as it looks the same afterwards. -/
theorem updBank (j : BankIx) {g g' : Packet → Packet} (hg : (g' (s'.bank j)).abs = (g (s.bank j)).abs) :
    Alike (s.updBank j g) (s'.updBank j g') := by
  have hbanks : ∀ k, ((s'.updBank j g').bank k).abs = ((s.updBank j g).bank k).abs := fun k => by
    rw [State.bank_updBank, State.bank_updBank]
    split
    · exact hg
    · exact h.banks k
  by_cases hj : j = 0
  · subst hj
    exact { h with banks := hbanks }
  · obtain rfl : j = 1 := BankIx.eq_of_ne_zero hj (by decide)
    exact { h with banks := hbanks }

/-- The receive engine goes on scanning: nothing it has staged is live. -/
theorem scans (hr : s.rxs ≠ .idle) {r : RxState} (hb : r ≠ .readBody) : Alike { s with rxs := r } { s' with rxs := r } :=
  { h with
    rxs := rfl
    rxk := fun _ => h.rxk hr
    body := fun h => absurd h hb }

theorem startReceive (j : BankIx) : Alike (s.startReceive j) (s'.startReceive j) :=
  { h with
    rxs := rfl
    rxk := fun _ => rfl
    body := nofun }

/-- The frame just loaded is the live contents of `TXBUF`, whatever was there before. -/
theorem loadFrame (hr : s.rxs = .idle) (hw : s.txbuf.wf 134 = true) (hw' : s'.txbuf.wf 134 = true) {f : List Byte}
    (hl : f.length ≤ 134) : Alike (s.loadFrame f) (s'.loadFrame f) := by
  have hf := State.loadedFrame_loadFrame hw hl
  have hf' := State.loadedFrame_loadFrame hw' hl
  exact { h with
    txs := rfl
    rxk := fun hi => absurd hr hi
    body := fun hb => nomatch hr.symm.trans hb
    frame := fun _ => ⟨hf'.trans hf.symm, rfl, rfl,
      (State.loadedFrame_eq_some.1 hf').2.trans (State.loadedFrame_eq_some.1 hf).2.symm⟩ }

theorem txAnswer (he : s.txs = .emit) : OutcomesRel Alike (txAnswer s) (txAnswer s') :=
  .txAnswer h.txAns (h.unsent he) h h.txTaken fun _ _ ht => ht.complete

/-! ## States that cannot be told apart: the receive engine -/

theorem seekByte (hr : s.rxs ≠ .idle) (b : Byte) : Alike (seekByte b s) (seekByte b s') := by
  unfold Machine.seekByte
  split
  · exact h.scans hr nofun
  · exact h.scans hr nofun

/-- A LEN byte of 4 or more sets every register that is live in `READ_BODY`. -/
theorem lenByteTaken (hr : s.rxs ≠ .idle) (len : Byte) : Alike (lenByteTaken len s) (lenByteTaken len s') := by
  unfold Machine.lenByteTaken
  split
  · exact h.scans hr nofun
  · exact { h with
      rxs := rfl
      rxk := fun _ => h.rxk hr
      body := fun _ => ⟨Nat.le_of_not_lt ‹_›, rfl, rfl, rfl, fun _ hi => absurd hi (Nat.not_lt_zero _)⟩ }

/-- A body byte is staged in both states alike, and what was staged before it stays. -/
theorem bodyByte (hr : s.rxs = .readBody) (hw : s.rxbuf.wf 131 = true) (hw' : s'.rxbuf.wf 131 = true) (b : Byte) :
    Alike (bodyByte b s) (bodyByte b s') := by
  obtain ⟨h4, hlen, hcnt, hsum, hread⟩ := h.body hr
  refine { h with
    rxs := rfl
    rxk := fun _ => h.rxk (by simp [hr])
    body := fun _ => ⟨h4, hlen, congrArg (· + 0x01#8) hcnt, congrArg (· + b) hsum, fun i hi hsz => ?_⟩ }
  have hle : i < s.rxcnt.toNat + 1 := by
    rw [bodyByte_rxcnt, BitVec.toNat_add] at hi
    exact hi.trans_le (Nat.mod_le ..)
  rcases Nat.lt_or_eq_of_le (Nat.le_of_lt_succ hle) with hlt | rfl
  · rw [bodyByte_read_ne b (.inl hlt.ne), bodyByte_read_ne b (.inl (hcnt ▸ hlt.ne))]
    exact hread i hlt hsz
  · rw [bodyByte_read_self b hw hsz, ← hcnt, bodyByte_read_self b hw' (hcnt ▸ hsz)]

/-- The last body byte: both states stage the whole candidate, so they deliver the same packet. -/
theorem checksumByte (hr : s.rxs = .readBody) (hc : ¬ s.rxcnt.toNat < s.rxlen.toNat - 1)
    (hb : (s.bank s.rxk).Inv) (hb' : (s'.bank s.rxk).Inv) (c : Byte) :
    Alike (checksumByte c s) (checksumByte c s') := by
  have hri : s.rxs ≠ .idle := by simp [hr]
  obtain ⟨h4, hlen, -, hsum, hread⟩ := h.body hr
  by_cases hcs : c = s.rxsum
  · subst hcs
    by_cases hl : s.rxlen.toNat ≤ 132
    · have hn : payloadLength s.rxlen ≤ 128 := Nat.sub_le_of_le_add hl
      have hpl : payloadLength s.rxlen + 4 = s.rxlen.toNat := Nat.sub_add_cancel h4
      have hsame : ∀ i, i + 1 < s.rxlen.toNat → s'.rxbuf.read i = s.rxbuf.read i :=
        fun i hi => hread i (by omega) (show i < 131 by omega)
      rw [checksumByte_verified hl, ← hsum, checksumByte_verified (hlen ▸ hl), hlen, h.rxk hri]
      refine (h.updBank s.rxk ?_).complete codeOk .ok
      rw [Packet.materialize_abs hb.1 _ hn, Packet.materialize_abs hb'.1 _ hn, hsame 0 (by omega), hsame 1 (by omega),
        hsame 2 (by omega), Memory.readN_congr _ fun i _ hi => hsame i (by omega)]
    · rw [checksumByte_oversize hl, ← hsum, checksumByte_oversize (hlen ▸ hl)]
      exact h.complete _ _
  · rw [checksumByte_mismatch hcs, checksumByte_mismatch (hsum ▸ hcs)]
    exact h.scans hri nofun

theorem rxByte (hr : s.rxs ≠ .idle) (hi : s.Stored) (hi' : s'.Stored) (b : Byte) :
    Alike (rxByte b s) (rxByte b s') := by
  unfold Machine.rxByte
  rw [h.rxs]
  split
  next => exact h
  next => exact h.seekByte hr b
  next => exact h.lenByteTaken hr b
  next hb =>
    obtain ⟨-, hlen, hcnt, -⟩ := h.body hb
    rw [hlen, hcnt]
    split
    next => exact h.bodyByte hb hi.rxbuf hi'.rxbuf b
    next hc => exact h.checksumByte hb hc (hi.banks _) (hi'.banks _) b

theorem rxEvent (hr : s.rxs ≠ .idle) (hi : s.Stored) (hi' : s'.Stored) (e : RxEvent) :
    Alike (rxEvent e s) (rxEvent e s') := by
  cases e with
  | byte b => exact h.rxByte hr hi hi' b
  | eof =>
    simp only [Machine.rxEvent, rxEof, h.rxs]
    split
    next => exact h
    all_goals exact h.complete _ _
  | ioerr => rw [rxEvent_ioerr hr, rxEvent_ioerr (h.rxs ▸ hr)]; exact h.complete _ _

theorem rxRead (hr : s.rxs ≠ .idle) (hi : s.Stored) (hi' : s'.Stored) : Alike (rxRead s) (rxRead s') := by
  cases hx : s.rx with
  | nil => rw [rxRead_nil hx, rxRead_nil (h.rx.trans hx)]; exact h
  | cons e rest =>
    rw [rxRead_cons hx, rxRead_cons (h.rx.trans hx)]
    exact (h.rxTaken rest).rxEvent hr ⟨hi.banks, hi.rxbuf, hi.txbuf⟩ ⟨hi'.banks, hi'.rxbuf, hi'.txbuf⟩ e

end Alike

/-! ## States that cannot be told apart: the commands -/

/-- Two states between commands that cannot be told apart, their byte spaces in canonical form, so that a byte written is the
byte read back. -/
structure AlikeBetween (s s' : State) : Prop where
  alike : Alike s s'
  between : Between s
  stored : s.Stored
  stored' : s'.Stored

/-- States that cannot be told apart are a simulation of the commands on each bank. -/
theorem BankSimulation.alike (j : BankIx) : BankSimulation j AlikeBetween Alike where
  ports h := ⟨h.alike.portA, h.alike.portB, h.alike.portData⟩
  laddr h := h.alike.laddr
  abs h := h.alike.banks j
  writes {s _} h g hg :=
    { alike := h.alike.updBank j (hg.abs_congr (h.stored.banks j) (h.stored'.banks j) (h.alike.banks j))
      between := ⟨(State.updBank_rxs s j g).trans h.between.1, (State.updBank_txs s j g).trans h.between.2⟩
      stored := h.stored.updBank j fun _ => hg.keeps_inv
      stored' := h.stored'.updBank j fun _ => hg.keeps_inv }
  ends h := h.alike.complete
  receives h := h.alike.startReceive j
  transmits h _ hl := (h.alike.loadFrame h.between.1 h.stored.txbuf h.stored'.txbuf hl).txAnswer rfl

theorem bankField_cases (k : BitVec 8) : (∃ j, k = bankField j) ∨ Config.NPKT ≤ k.toNat := by
  by_cases h : k.toNat < Config.NPKT
  · exact .inl ⟨⟨k.toNat, h⟩, BitVec.eq_of_toNat_eq (bankField_toNat ⟨k.toNat, h⟩).symm⟩
  · exact .inr (Nat.le_of_not_lt h)

/-- Rule R83: every command that names a bank is refused where the bank is out of range. -/
theorem exec_bankOutOfRange {k : BitVec 8} (h : Config.NPKT ≤ k.toNat) (s : State) :
    ∀ c ∈ bankCommands, exec (c k) s = .next s.illegalCommand := by
  intro c hc
  fin_cases hc
  all_goals exact dif_neg (Nat.not_lt.2 h)

/-- A command of the command port names a bank, reaches `LADDR`, or stands in a reserved row. -/
theorem command_cases {i : Instr} (h : onWire i = false) :
    (∃ c ∈ bankCommands, ∃ k, i = c k) ∨ i = .setAddress ∨ i = .getAddress ∨ ReservedInstr i := by
  cases i with
  | clear k | setSource k | setDestination k | setType k | getSource k | getDestination k | getType k | setData k
  | getData k | setString k | getString k | send k | sendT k | sendD k | sendDT k | receive k | setInteger1U k
  | setInteger2U k | setInteger4U k | setInteger8U k | setInteger1S k | setInteger2S k | setInteger4S k
  | setInteger8S k | getInteger1U k | getInteger2U k | getInteger4U k | getInteger8U k | getInteger1S k
  | getInteger2S k | getInteger4S k | getInteger8S k =>
    exact .inl ⟨_, by simp [bankCommands, plainBankCommands], k, rfl⟩
  | setAddress => exact .inr (.inl rfl)
  | getAddress => exact .inr (.inr (.inl rfl))
  | reserved00 k | reserved19 k => exact .inr (.inr (.inr (by simp [ReservedInstr])))
  | reserved0E x k | reserved14 x k | reserved1A x k | reserved1C x k | reserved30 x k | reserved40 x k
  | reserved80 x k => exact .inr (.inr (.inr (by simp [ReservedInstr])))
  | frame rest => cases h
  | frameFalseSyn ll => cases h

theorem ReservedInstr.exec {i : Instr} (h : ReservedInstr i) (s : State) : exec i s = .next s.illegalCommand := by
  rcases h with ⟨k, rfl⟩ | ⟨x, k, rfl⟩ | ⟨x, k, rfl⟩ | ⟨k, rfl⟩ | ⟨x, k, rfl⟩ | ⟨x, k, rfl⟩ | ⟨x, k, rfl⟩ |
    ⟨x, k, rfl⟩ | ⟨x, k, rfl⟩
  all_goals rfl

/-- Any command, issued in two states that cannot be told apart. -/
theorem AlikeBetween.exec {s s' : State} (h : AlikeBetween s s') {i : Instr} (hi : onWire i = false) :
    OutcomesRel Alike (exec i s) (exec i s') := by
  rcases command_cases hi with ⟨c, hc, k, rfl⟩ | rfl | rfl | hr
  · obtain ⟨j, rfl⟩ | hk := bankField_cases k
    · exact (BankSimulation.alike j).exec h c hc
    · rw [exec_bankOutOfRange hk s c hc, exec_bankOutOfRange hk s' c hc]
      exact .next (h.alike.complete _ _)
  · rw [exec_setAddress, exec_setAddress]
    have hport := h.alike.portA
    by_cases hv : RangeOK s.portA 1 .U
    · rw [storeCheckedByte_ok _ hv, storeCheckedByte_ok _ (hport ▸ hv)]
      exact .next ((h.alike.putLaddr (congrArg byteOf hport)).complete codeOk .ok)
    · rw [storeCheckedByte_range _ hv, storeCheckedByte_range _ (hport ▸ hv), hport]
      exact .next (h.alike.complete _ _)
  · rw [exec_getAddress, exec_getAddress, h.alike.laddr]
    exact .next (h.alike.complete _ _)
  · rw [hr.exec, hr.exec]
    exact .next (h.alike.complete _ _)

theorem Alike.issue {s s' : State} (h : Alike s s') (hb : Between s) (hi : s.Stored) (hi' : s'.Stored) :
    OutcomesRel Alike (issue s) (issue s') := by
  cases hc : s.cmds with
  | nil => rw [issue_nil hc, issue_nil (h.cmds.trans hc)]; exact .next h
  | cons c rest =>
    cases hd : decodeCommand c.word with
    | ok i =>
      rw [issue_ok hc hd, issue_ok (h.cmds.trans hc) hd]
      exact AlikeBetween.exec ⟨h.issued c rest, hb, ⟨hi.banks, hi.rxbuf, hi.txbuf⟩, ⟨hi'.banks, hi'.rxbuf, hi'.txbuf⟩⟩
        (decodeCommand_onWire hd)
    | error e =>
      rw [issue_error hc hd, issue_error (h.cmds.trans hc) hd]
      exact .next ((h.issued c rest).complete _ _)

theorem Alike.advance {s s' : State} (h : Alike s s') (hi : s.Stored) (hi' : s'.Stored) :
    OutcomesRel Alike (advance s) (advance s') := by
  cases ht : s.txs with
  | emit => rw [advance_emit ht, advance_emit (h.txs.trans ht)]; exact h.txAnswer ht
  | idle =>
    have ht' := h.txs.trans ht
    by_cases hr : s.rxs = .idle
    · rw [advance_between ⟨hr, ht⟩, advance_between ⟨h.rxs.trans hr, ht'⟩]
      exact h.issue ⟨hr, ht⟩ hi hi'
    · rw [advance_receive ht hr, advance_receive ht' (h.rxs ▸ hr)]
      exact .next (h.rxRead hr hi hi')

/-- Settles O57: whatever a step does, it does it to two states that cannot be told apart alike. -/
theorem unspecifiedBytesAreNeverRead : Obligations.UnspecifiedBytesAreNeverRead := by
  intro s s' hi hi' h
  apply OutcomesRel.alikeOutcomes
  have hline : s'.resetLine = s.resetLine := h.resetLine
  rcases noReset_or s with hn | hr
  · rw [step_noReset hn, step_noReset (s := s') (by unfold NoReset; rwa [hline])]
    exact h.tick.advance hi.tick.stored hi'.tick.stored
  · rw [step_reset hr, step_reset (hline ▸ hr)]
    exact .next h.tick.resetEvent

end Sys2Proof.Machine
end


section

/-!
PROOFS. What only some commands change (O15 and O16), completions (O54), the SEND that waits (O35), and the issuing step and
the state after reset (O6 and O9).
-/

namespace Sys2Proof.Machine

/-! ## What only some commands change -/

/-- A step of the transmit transport touches no bank and not `LADDR`. -/
theorem TxEffect.keeps_banks {s t : State} (h : TxEffect s t) : (∀ k, t.bank k = s.bank k) ∧ t.laddr = s.laddr := by
  cases h with
  | waits | writes _ _ _ _ | finishes _ _ _ | fails _ _ _ _ => exact ⟨fun _ => rfl, rfl⟩

theorem RxEffect.laddr {s t : State} (h : RxEffect s t) : t.laddr = s.laddr := by
  cases h with
  | delivers _ _ => exact State.updBank_laddr ..
  | scans _ _ | begins _ _ | takes _ _ _ | ends _ _ _ => rfl

/-- Rule R19: among the commands, only SETADDRESS writes `LADDR`, and it writes its operand. -/
theorem CommandEffect.laddr {i : Instr} {s t : State} {o : Host.Outcome State Fault Refusal}
    (h : CommandEffect i s o) (ho : o = .next t) :
    t.laddr = s.laddr ∨ (i = .setAddress ∧ (t.laddr.toNat : Int) = s.portA) := by
  cases h with
  | address hi h0 h1 => cases ho; exact .inr ⟨hi, byteOf_toNat h0 h1⟩
  | sends j g p _ _ _ _ _ => exact .inl ((txAnswer_effect ho).keeps_banks.2.trans (State.updBank_laddr ..))
  | clears j _ | header j g _ | stores j bs _ | sendFaults j g _ _ f info => cases ho; exact .inl (State.updBank_laddr ..)
  | ends c e _ | receives j _ => cases ho; exact .inl rfl
  | stops _ _ _ => cases ho

/-- Settles O15: of all that a step can do, only reset and SETADDRESS write `LADDR`. -/
theorem laddrChangesOnlyBySetAddressOrReset : Obligations.LaddrChangesOnlyBySetAddressOrReset := by
  intro s t h hne
  cases step_effect h with
  | resets hr => exact .inl hr
  | waits _ _ | refuses _ _ _ _ => exact absurd rfl hne
  | transmits _ _ he => exact absurd he.keeps_banks.2 hne
  | receives _ _ _ _ he => exact absurd he.laddr hne
  | runs _ hb hc hd he ho =>
    obtain hsame | ⟨rfl, hval⟩ := he.laddr ho
    · exact absurd hsame hne
    · exact .inr ⟨_, _, hb, hc, decodeCommand_setAddress hd, hval⟩

/-- A bank keeps its `PSET` when a bank is written by something that clears no `PSET`. -/
theorem State.updBank_keeps_pset {s : State} (j : BankIx) {g : Packet → Packet}
    (hg : (s.bank j).pset = true → (g (s.bank j)).pset = true) {k : BankIx} (h : (s.bank k).pset = true) :
    ((s.updBank j g).bank k).pset = true := by
  rw [State.bank_updBank]
  split
  · subst_vars
    exact hg h
  · exact h

theorem RxEffect.keeps_pset {s t : State} (h : RxEffect s t) {k : BankIx} (hk : (s.bank k).pset = true) :
    (t.bank k).pset = true := by
  cases h with
  | delivers _ _ => exact State.updBank_keeps_pset _ (fun _ => rfl) hk
  | scans _ _ | begins _ _ | takes _ _ _ | ends _ _ _ => exact hk

/-- Rule R15: among the commands, only CLEAR of a bank clears its `PSET`. -/
theorem CommandEffect.keeps_pset {i : Instr} {s t : State} {o : Host.Outcome State Fault Refusal}
    (h : CommandEffect i s o) (ho : o = .next t) {k : BankIx} (hk : (s.bank k).pset = true) :
    (t.bank k).pset = true ∨ i = .clear (bankField k) := by
  have kept : ∀ (j : BankIx) {g : Packet → Packet}, KeepsPayload g → ((s.updBank j g).bank k).pset = true :=
    fun j _ hg => State.updBank_keeps_pset j (fun hp => (hg _).1.trans hp) hk
  cases h with
  | clears j hi =>
    cases ho
    by_cases hj : k = j
    · exact .inr (hj ▸ hi)
    · exact .inl ((congrArg Packet.pset (State.bank_updBank_ne s _ hj)).trans hk)
  | header j g hg => cases ho; exact .inl (kept j hg.keepsPayload)
  | stores j bs _ => cases ho; exact .inl (State.updBank_keeps_pset j (fun _ => rfl) hk)
  | sendFaults j g _ hg f info => cases ho; exact .inl (kept j hg)
  | sends j g p _ hg _ _ _ => exact .inl ((txAnswer_effect ho).keeps_banks.1 k ▸ kept j hg)
  | ends c e _ | address _ _ _ | receives j _ => cases ho; exact .inl hk
  | stops _ _ _ => cases ho

/-- Settles O16: of all that a step can do, only reset and CLEAR of the bank clear its `PSET`. -/
theorem psetIsClearedOnlyByClearOrReset : Obligations.PsetIsClearedOnlyByClearOrReset := by
  intro s t k h hk hk'
  have hne : (t.bank k).pset ≠ true := by simp [hk']
  cases step_effect h with
  | resets hr => exact .inl hr
  | waits _ _ | refuses _ _ _ _ => exact absurd hk hne
  | transmits _ _ he => exact absurd (he.keeps_banks.1 k ▸ hk) hne
  | receives _ _ _ _ he => exact absurd (he.keeps_pset hk) hne
  | runs _ hb hc hd he ho =>
    obtain hset | rfl := he.keeps_pset ho hk
    · exact absurd hset hne
    · exact .inr ⟨_, _, hb, hc, hd⟩

/-! ## Completions -/

/-- Rules R20 and R87: no completion is presented and STATUS is kept, or a command ends with the code of its ending. -/
def CompletesAtMostOnce (s t : State) : Prop :=
  (t.results = s.results ∧ t.status = s.status) ∨ ∃ c e, Ending.codeOK e c ∧ Ends s t c e

theorem TxEffect.completes {s t : State} (h : TxEffect s t) : CompletesAtMostOnce s t := by
  cases h with
  | waits | writes _ _ _ _ => exact .inl ⟨rfl, rfl⟩
  | finishes w _ rest => exact .inr ⟨codeOk, .ok, rfl, Ends.complete (s.txTaken w rest) _ _⟩
  | fails w _ n rest => exact .inr ⟨_, .fault .transport .none, rfl, Ends.complete (s.txTaken (w.take n) rest) _ _⟩

theorem RxEffect.completes {s t : State} (h : RxEffect s t) : CompletesAtMostOnce s t := by
  cases h with
  | delivers _ _ => exact .inr ⟨_, .ok, rfl, Ends.updBank_complete ..⟩
  | ends c e hc => exact .inr ⟨c, e, hc, Ends.complete ..⟩
  | scans _ _ | begins _ _ | takes _ _ _ => exact .inl ⟨rfl, rfl⟩

theorem CommandEffect.completes {i : Instr} {s t : State} {o : Host.Outcome State Fault Refusal}
    (h : CommandEffect i s o) (ho : o = .next t) : CompletesAtMostOnce s t := by
  cases h with
  | ends c e hc => cases ho; exact .inr ⟨c, e, hc, Ends.complete ..⟩
  | clears j _ | header j g _ | stores j bs _ => cases ho; exact .inr ⟨_, .ok, rfl, Ends.updBank_complete ..⟩
  | address _ _ _ => cases ho; exact .inr ⟨_, .ok, rfl, Ends.complete ..⟩
  | receives j _ => cases ho; exact .inl ⟨rfl, rfl⟩
  | sendFaults j g _ _ f info => cases ho; exact .inr ⟨_, .fault f info, rfl, Ends.updBank_complete ..⟩
  | sends j g p _ _ _ _ _ =>
    have hc := (txAnswer_effect ho).completes
    simp only [CompletesAtMostOnce, Ends, State.loadFrame_results, State.loadFrame_status, State.updBank_results,
      State.updBank_status] at hc
    exact hc
  | stops _ _ _ => cases ho

theorem step_completes {s t : State} (hn : NoReset s) (h : step s = .next t) : CompletesAtMostOnce s t := by
  cases step_effect h with
  | resets hr => exact absurd hn hr
  | waits _ _ => exact .inl ⟨rfl, rfl⟩
  | transmits _ _ he => exact he.completes
  | receives _ _ _ _ he => exact he.completes
  | refuses _ _ c rest => exact .inr ⟨_, .fault .illegalCmd .none, rfl, Ends.complete (s.tick.issued c rest) _ _⟩
  | runs _ _ _ _ he ho => exact he.completes ho

/-- Settles O54: a step that presents a completion ends a command, and every ending goes with its own code. -/
theorem statusIsTheLastCompletionCode : Obligations.StatusIsTheLastCompletionCode := by
  refine ⟨fun s t hn h => ?_, rfl⟩
  obtain hsame | ⟨c, e, hc, hstatus, hresults, hrxs, htxs⟩ := step_completes hn h
  · exact .inl hsame
  · refine .inr ⟨⟨c, e⟩, hresults, hstatus, ⟨hrxs, htxs⟩, ?_⟩
    cases e with
    | fault _ _ | noPacket | ok | okByte _ | okInt _ | okBytes _ => exact hc

/-! ## A SEND that waits -/

/-- Rule R162: the bank that a SEND leaves: its operands where they are given, and `LADDR` as source. -/
def sendHeader (d t : Bool) (s : State) (p : Packet) : Packet :=
  { p with dst := headerAfter d s.portA p.dst, typ := headerAfter t s.portB p.typ, src := s.laddr }

theorem overwriteHeader_dst {given : Bool} {v : Int} (h : given = true → 0 ≤ v ∧ v ≤ 255) (j : BankIx) (s : State) :
    overwriteHeader given v Packet.putDst j s = .ok (s.updBank j fun p => p.putDst (headerAfter given v p.dst)) := by
  cases given with
  | false => exact congrArg Except.ok (State.updBank_id s j).symm
  | true => exact overwriteHeader_ok _ j s ((rangeOK_byte v).2 (h rfl))

theorem overwriteHeader_typ {given : Bool} {v : Int} (h : given = true → 0 ≤ v ∧ v ≤ 255) (j : BankIx) (s : State) :
    overwriteHeader given v Packet.putTyp j s = .ok (s.updBank j fun p => p.putTyp (headerAfter given v p.typ)) := by
  cases given with
  | false => exact congrArg Except.ok (State.updBank_id s j).symm
  | true => exact overwriteHeader_ok _ j s ((rangeOK_byte v).2 (h rfl))

/-- Rule R162: a SEND with operands in range and a payload set hands its frame to the transmit engine. -/
theorem sendForm_handsOver {d t : Bool} {s : State} {j : BankIx} {p : List Byte}
    (hp : (s.bank j).abs.payload = some p) (hl : p.length ≤ 128) (hd : d = true → 0 ≤ s.portA ∧ s.portA ≤ 255)
    (ht : t = true → 0 ≤ s.portB ∧ s.portB ≤ 255) :
    sendForm d t (bankField j) s = txAnswer ((s.updBank j (sendHeader d t s)).loadFrame
      (encodeFrame (headerAfter d s.portA (s.bank j).dst) s.laddr (headerAfter t s.portB (s.bank j).typ) p)) := by
  unfold sendForm
  rw [withBank_bankField, overwriteHeader_dst hd]
  dsimp only
  rw [overwriteHeader_typ ht, State.updBank_updBank]
  dsimp only
  rw [sendStamped_set (by rw [State.bank_updBank_self]; exact hp) hl, State.bank_updBank_self, State.updBank_updBank,
    State.updBank_laddr]
  rfl

theorem exec_sendForms : ∀ c ∈ sendForms, ∀ k s, exec (c.1 k) s = sendForm c.2.1 c.2.2 k s := by
  simp only [sendForms, List.forall_mem_cons]
  exact ⟨exec_send, exec_sendT, exec_sendD, exec_sendDT, nofun⟩

/-- Rules R22 and R23: a SEND of the frame `f` is in progress, `n` bytes of it (all, where it has fewer) are out since the
transmit stream was `base`. -/
structure WritesFrame (base f : List Byte) (n : Nat) (s : State) : Prop where
  txs : s.txs = .emit
  frame : s.loadedFrame = some f
  position : s.txpos.toNat = min n f.length
  tx : s.tx = base ++ f.take n

/-- Rule R163: a frame just loaded, nothing of it out. -/
theorem WritesFrame.loadFrame {s : State} (h : s.txbuf.wf 134 = true) {f : List Byte} (hl : f.length ≤ 134) :
    WritesFrame s.tx f 0 (s.loadFrame f) :=
  ⟨rfl, State.loadedFrame_loadFrame h hl, (Nat.zero_min _).symm, (List.append_nil _).symm⟩

section
variable {base f : List Byte} {n : Nat} {s : State} (h : WritesFrame base f n s)
include h

theorem WritesFrame.unsent : s.unsent = some (f.drop (min n f.length)) := h.position ▸ State.unsent_some h.frame

/-- The bytes from the position on continue those that are out. -/
theorem WritesFrame.tx_append_take (m : Nat) : s.tx ++ (f.drop (min n f.length)).take m = base ++ f.take (n + m) := by
  rw [h.tx, List.append_assoc, List.take_eq_take_min (i := n), ← List.take_add, List.take_eq_take_min,
    List.take_eq_take_min (i := n + m)]
  congr 2
  omega

theorem WritesFrame.tx_append_rest : s.tx ++ f.drop (min n f.length) = base ++ f := by
  rw [h.tx, List.append_assoc, List.take_eq_take_min, List.take_append_drop]

theorem WritesFrame.txTaken (hl : f.length ≤ 134) (m : Nat) (rest : List TxAnswer) :
    WritesFrame base f (n + m) (s.txTaken ((f.drop (min n f.length)).take m) rest) where
  txs := h.txs
  frame := h.frame
  position := by
    have hp := State.txTaken_position (s := s) hl (h.position ▸ Nat.min_le_right ..) m rest
    rw [h.position] at hp
    rw [hp]
    omega
  tx := h.tx_append_take m

end

/-- While the transport has nothing to say, nothing is taken from it. -/
theorem State.txTaken_nil {s : State} (h : s.txAns = []) : s.txTaken [] [] = s := by
  cases s
  cases h
  simp [State.txTaken]

theorem step_emit {s : State} (h : s.resetLine = []) (ht : s.txs = .emit) : step s = txAnswer s := by
  rw [step_noReset (noReset_of_nil h), tick_of_nil h, advance_emit ht]

/-- The first step of a SEND whose transport does not answer: it takes some bytes, or there is nothing to take. -/
theorem WritesFrame.waits {base f : List Byte} {n : Nat} {s : State} (h : WritesFrame base f 0 s) (hl : f.length ≤ 134)
    {rest : List TxAnswer} (ha : s.txAns = .pending n :: rest ∨ s.txAns = [] ∧ rest = [] ∧ n = 0) :
    ∃ w, txAnswer s = .next (s.txTaken w rest) ∧ WritesFrame base f n (s.txTaken w rest) := by
  rcases ha with ha | ⟨ha, rfl, rfl⟩
  · exact ⟨_, txAnswer_pending ha h.unsent, by simpa only [Nat.zero_add] using h.txTaken hl n rest⟩
  · refine ⟨[], ?_⟩
    rw [State.txTaken_nil ha]
    exact ⟨txAnswer_none ha, h⟩

/-- Settles O35: the issuing step loads the frame and takes the first `n` bytes of it; the next step goes on from there. -/
theorem waitingSendHoldsTheFrame : Obligations.WaitingSendHoldsTheFrame := by
  intro c hc s j p n rest hw hline hp hl hd ht hans dst typ frame
  have hlen : frame.length = p.length + 6 := encodeFrame_length ..
  have hl' : frame.length ≤ 134 := hlen.trans_le (Nat.add_le_add_right hl 6)
  let u := (s.updBank j (sendHeader c.2.1 c.2.2 s)).loadFrame frame
  have hexec : exec (c.1 (bankField j)) s = txAnswer u :=
    (exec_sendForms c hc _ s).trans (sendForm_handsOver hp hl hd ht)
  have hload : WritesFrame s.tx frame 0 u :=
    State.updBank_tx s j _ ▸ WritesFrame.loadFrame (by rw [State.updBank_txbuf]; exact hw) hl'
  obtain ⟨w, htake, hout⟩ := hload.waits hl' (State.updBank_txAns s j _ ▸ hans)
  let t := u.txTaken w rest
  have hbank : t.bank j = sendHeader c.2.1 c.2.2 s (s.bank j) := State.bank_updBank_self ..
  have hother : SameBanksBut j s t := SameBanksBut.of_eq fun k hk => State.bank_updBank_ne s _ hk
  have hladdr : t.laddr = s.laddr := State.updBank_laddr ..
  have hrx : t.rx = s.rx := State.updBank_rx ..
  have hresults : t.results = s.results := State.updBank_results ..
  have hstatus : t.status = s.status := State.updBank_status ..
  have hstep : step t = txAnswer t := step_emit ((State.updBank_resetLine ..).trans hline) hout.txs
  have htxn : t.txn.toNat = p.length + 6 := by
    rw [← hlen, ← (State.loadedFrame_eq_some.1 hout.frame).2, Memory.readN_length]
  refine ⟨t, hexec.trans htake, hout.txs, hout.frame, htxn, hlen ▸ hout.position, hresults, hstatus,
    State.updBank_rxs .., by rw [hbank]; rfl, by rw [hbank]; rfl, by rw [hbank]; rfl, ?_, hother, hladdr, ?_, ?_, hrx,
    hout.tx, rfl, ?_, ?_, ?_⟩
  · rw [hbank]
    exact ⟨rfl, rfl, SameBytes.refl _⟩
  · simp [t, u, SameRxEngine]
  · simp [t, u, SamePorts]
  · rintro m more rfl
    have hgoes := hout.txTaken hl' m more
    exact ⟨_, hstep.trans (txAnswer_pending rfl hout.unsent), hgoes.txs, hgoes.frame, hlen ▸ hgoes.position, hresults,
      hstatus, hgoes.tx, rfl, SameBanks.of_eq fun _ => rfl, hladdr, hrx⟩
  · rintro more rfl
    exact ⟨_, hstep.trans (txAnswer_done rfl hout.unsent), ⟨rfl, rfl, rfl, rfl⟩, hout.tx_append_rest, rfl,
      SameBanks.of_eq fun _ => rfl, hladdr, hrx⟩
  · rintro m more rfl
    exact ⟨_, hstep.trans (txAnswer_ioerr rfl hout.unsent), ⟨rfl, rfl, rfl, rfl⟩, hout.tx_append_take m, rfl,
      SameBanks.of_eq fun _ => rfl, hladdr, hrx⟩

/-! ## The issuing step, and reset -/

/-- Settles O6: no reset, between commands, a word that decodes, one equation each. -/
theorem stepRunsTheIssuedCommand : Obligations.StepRunsTheIssuedCommand := by
  intro s c rest i hn hb hc hd
  calc step s = issue s.tick := (step_noReset hn).trans (advance_between (s := s.tick) hb)
    _ = exec i (s.tick.issued c rest) := issue_ok (s := s.tick) hc hd

/-- Settles O9: both banks are the empty bank. -/
theorem resetStateHoldsTheResetValues : Obligations.ResetStateHoldsTheResetValues := by
  refine ⟨fun k => ?_, rfl, rfl, rfl, rfl⟩
  have hk : State.reset.bank k = Packet.empty := State.bank_resetEvent State.reset k
  rw [hk]
  exact ⟨SameHeader.refl _, rfl, rfl, rfl⟩

end Sys2Proof.Machine
end

section

/-!
PROOFS. What a step takes from the command port and from the receive stream (O8), the bytes of `PAY` that a payload store leaves
alone (O22), the order of the bytes of an integer (O24), waiting (O7), and payload reads outside the buffer (O21).
-/

namespace Sys2Proof.Machine

/-! ## What a step takes from the host and from the receive transport -/

/-- Rules R44 and R58: neither a command nor an answer of the receive transport is taken. -/
def TakesNoInput (s t : State) : Prop := t.cmds = s.cmds ∧ t.rx = s.rx

/-- A step of the transmit transport takes answers of its own alone. -/
theorem TxEffect.takesNoInput {s t : State} (h : TxEffect s t) : TakesNoInput s t := by
  cases h with
  | waits | writes _ _ _ _ | finishes _ _ _ | fails _ _ _ _ => exact ⟨rfl, rfl⟩

/-- The receive engine takes no answer but the one it was given. -/
theorem RxEffect.takesNoInput {s t : State} (h : RxEffect s t) : TakesNoInput s t := by
  cases h with
  | delivers _ _ => exact ⟨State.updBank_cmds .., State.updBank_rx ..⟩
  | scans _ _ | begins _ _ | takes _ _ _ | ends _ _ _ => exact ⟨rfl, rfl⟩

/-- Rules R52 and R181: a command issues no other command, and RECEIVE takes no answer in the step that issues it. -/
theorem CommandEffect.takesNoInput {i : Instr} {s t : State} {o : Host.Outcome State Fault Refusal}
    (h : CommandEffect i s o) (ho : o = .next t) : TakesNoInput s t := by
  cases h with
  | sends j g p _ _ _ _ _ =>
    obtain ⟨hc, hr⟩ := (txAnswer_effect ho).takesNoInput
    exact ⟨hc.trans (State.updBank_cmds ..), hr.trans (State.updBank_rx ..)⟩
  | clears j _ | header j g _ | stores j bs _ | sendFaults j g _ _ f info =>
    cases ho
    exact ⟨State.updBank_cmds .., State.updBank_rx ..⟩
  | ends c e _ | address _ _ _ | receives j _ => cases ho; exact ⟨rfl, rfl⟩
  | stops _ _ _ => cases ho

/-- Rule R44: a RECEIVE in progress takes the receive transport's first answer, where there is one, and no command. -/
theorem rxRead_takes {s : State} (h : s.rxs ≠ .idle) : (rxRead s).cmds = s.cmds ∧ (rxRead s).rx = s.rx.tail := by
  cases hx : s.rx with
  | nil =>
    rw [rxRead_nil hx]
    exact ⟨rfl, hx⟩
  | cons e rest =>
    rw [rxRead_cons hx]
    exact (rxEvent_effect e (s := s.rxTaken rest) h).takesNoInput

/-- Settles O8: by what a step can do, only issuing takes a command, and only a RECEIVE in progress takes an answer. -/
theorem commandsAndBytesAreTakenInOrder : Obligations.CommandsAndBytesAreTakenInOrder := by
  intro s t h
  rcases step_cases s with ⟨-, hs⟩ | ⟨-, -, hs⟩ | ⟨hn, ht, hr, hs⟩ | ⟨-, -, -, hs⟩ | ⟨c, rest, i, hn, hb, hc, hd, hs⟩ |
    ⟨c, rest, e, hn, hb, hc, -, hs⟩
  all_goals rw [hs] at h
  · cases h
    exact ⟨.inl rfl, .inl rfl⟩
  · obtain ⟨hcmds, hrx⟩ := (txAnswer_effect h).takesNoInput
    exact ⟨.inl hcmds, .inl hrx⟩
  · cases h
    obtain ⟨hcmds, hrx⟩ := rxRead_takes (s := s.tick) hr
    exact ⟨.inl hcmds, .inr ⟨hr, ht, hn, hrx⟩⟩
  · cases h
    exact ⟨.inl rfl, .inl rfl⟩
  · obtain ⟨hcmds, hrx⟩ := (exec_effect i _ (decodeCommand_onWire hd)).takesNoInput h
    exact ⟨.inr ⟨hb, hn, by rw [hc]; exact hcmds⟩, .inl hrx⟩
  · cases h
    exact ⟨.inr ⟨hb, hn, by rw [hc]; rfl⟩, .inl rfl⟩

/-! ## Payload stores -/

/-- Rule R41: storing `bs` writes `PAY` below the length of `bs` alone; where `bs` is too long it writes nothing. -/
theorem storePayload_pay_above (s : State) (j : BankIx) (bs : List Byte) {i : Nat} (h : bs.length ≤ i) :
    ((storePayload j bs s).bank j).pay.read i = (s.bank j).pay.read i := by
  by_cases hl : bs.length ≤ 128
  · rw [storePayload_ok j s hl, State.bank_finish, State.bank_updBank_self, Packet.store_pay]
    exact Memory.read_writeN_outside bs _ (.inr ((Nat.zero_add _).trans_le h))
  · rw [storePayload_overflow j s (Nat.lt_of_not_le hl)]
    rfl

theorem exec_integerSetters : ∀ c ∈ integerSetters, ∀ k s, exec (c.1 k) s = setInteger c.2.1 c.2.2 k s := by
  simp only [integerSetters, List.forall_mem_cons]
  exact ⟨exec_setInteger1U, exec_setInteger2U, exec_setInteger4U, exec_setInteger8U, exec_setInteger1S, exec_setInteger2S,
    exec_setInteger4S, exec_setInteger8S, nofun⟩

/-- Settles O22: each of the commands stores its bytes with `storePayload`, or SETINTEGER ends with RangeError. -/
theorem payloadStoresTouchOnlyTheirBytes : Obligations.PayloadStoresTouchOnlyTheirBytes := by
  intro s t j
  refine ⟨fun h i hi => ?_, fun h i hi => ?_, fun c hc h i hi => ?_⟩
  · rw [exec_setData, withBank_bankField] at h
    cases h
    exact storePayload_pay_above s j _ hi
  · rw [exec_setString, withBank_bankField] at h
    cases h
    exact storePayload_pay_above s j _ (by rwa [List.length_append])
  · rw [exec_integerSetters c hc, setInteger_bank] at h
    split at h
    · cases h
      exact storePayload_pay_above s j _ (by rwa [leSer_length])
    · cases h
      rfl

/-! ## The bytes of an integer -/

theorem emod_mul_ediv (x : Int) {a : Int} (b : Int) (h : 0 < a) : x % (a * b) / a = x / a % b := by
  rw [Int.emod_def, Int.emod_def, Int.ediv_ediv_of_nonneg h.le, mul_assoc, Int.sub_mul_ediv_left _ _ h.ne']

/-- Rule R130: byte `i` of an encoding, whatever its width, is the `i`-th base-256 digit of the value. -/
theorem leSer_digit (n : Nat) (v : Int) {i : Nat} (h : i < (leSer n v).length) :
    ((leSer n v)[i].toNat : Int) = v / 2 ^ (8 * i) % 256 := by
  have hi : i < n := by rwa [leSer_length] at h
  have hw : (2 : Int) ^ (8 * n) = 2 ^ (8 * i) * 2 ^ (8 * (n - i)) := by
    rw [← pow_add, ← Nat.mul_add, Nat.add_sub_of_le hi.le]
  have h256 : (256 : Int) ∣ 2 ^ (8 * (n - i)) := pow_dvd_pow 2 (show 8 ≤ 8 * (n - i) by omega)
  have h0 : 0 ≤ v % 2 ^ (8 * n) := Int.emod_nonneg v (by positivity)
  calc ((leSer n v)[i].toNat : Int) = ((v % 2 ^ (8 * n)).toNat / 2 ^ (8 * i) % 2 ^ 8 : Nat) := by
        rw [leSer_getElem, BitVec.toNat_ofNat]
    _ = v % 2 ^ (8 * n) / 2 ^ (8 * i) % 256 := by push_cast; rw [Int.toNat_of_nonneg h0]
    _ = v / 2 ^ (8 * i) % 2 ^ (8 * (n - i)) % 256 := by rw [hw, emod_mul_ediv v _ (by positivity)]
    _ = v / 2 ^ (8 * i) % 256 := Int.emod_emod_of_dvd _ h256

/-- Settles O24: the bytes of both widths are digits of the same value. -/
theorem integersAreLittleEndian : Obligations.IntegersAreLittleEndian := by
  intro n m v hm
  have hprefix : (leSer n v).take m = leSer m v := by
    refine List.ext_getElem (by simpa using hm) fun i h1 h2 => BitVec.eq_of_toNat_eq (Int.ofNat.inj ?_)
    rw [List.getElem_take]
    exact (leSer_digit n v _).trans (leSer_digit m v h2).symm
  refine ⟨hprefix, ?_, fun i hi => ?_⟩
  · rw [hprefix]
    exact leNat_leSer m v
  · have hl : i < (leSer n v).length := by rwa [leSer_length]
    exact ⟨_, List.getElem?_eq_getElem hl, by rw [leSer_getElem]; exact BitVec.toNat_ofNat ..⟩

/-! ## Waiting -/

/-- Rule R43: an answer with which no byte goes out is used up, and nothing else changes. -/
theorem State.txTaken_noBytes (s : State) (rest : List TxAnswer) : s.txTaken [] rest = { s with txAns := rest } := by
  simp [State.txTaken]

/-- Settles O7: one equation of the step for each thing that is waited for. -/
theorem waitingChangesNothing : Obligations.WaitingChangesNothing := by
  intro s hn
  rw [step_noReset hn]
  refine ⟨fun hb hc => ?_, fun ht hr hx => ?_, fun ht ha => ?_, fun f rest ht hf ha => ?_⟩
  · exact (advance_between (s := s.tick) hb).trans (issue_nil hc)
  · rw [advance_receive (s := s.tick) ht hr, rxRead_nil (s := s.tick) hx]
  · exact (advance_emit (s := s.tick) ht).trans (txAnswer_none ha)
  · rw [advance_emit (s := s.tick) ht, txAnswer_pending (s := s.tick) ha (State.unsent_some hf), List.take_zero,
      State.txTaken_noBytes]

/-! ## Payload reads outside the buffer -/

/-- Rule R16 excludes it: a SEND with its operands in range stops where `PLEN` lies outside the payload buffer. -/
theorem sendForm_stops {d t : Bool} {s : State} {j : BankIx} (hp : (s.bank j).pset = true)
    (hl : 128 < (s.bank j).plen.toNat) (hd : d = true → 0 ≤ s.portA ∧ s.portA ≤ 255)
    (ht : t = true → 0 ≤ s.portB ∧ s.portB ≤ 255) : sendForm d t (bankField j) s = .fault .payloadIndex := by
  unfold sendForm
  rw [withBank_bankField, overwriteHeader_dst hd]
  dsimp only
  rw [overwriteHeader_typ ht, State.updBank_updBank]
  exact sendStamped_stops (by rw [State.bank_updBank_self]; exact hp) (by rw [State.bank_updBank_self]; exact hl)

/-- Settles O21: every whole-payload read goes through the same bounded read. -/
theorem payloadReadOutsideTheBufferStops : Obligations.PayloadReadOutsideTheBufferStops := by
  intro s j hp hl
  refine ⟨?_, ?_, ?_, fun ha ha' => ?_, fun hb hb' => ?_, fun ha ha' hb hb' => ?_⟩
  · rw [exec_getData, withBank_bankField]
    exact readPayload_stops _ hp hl
  · rw [exec_getString, withBank_bankField]
    exact readPayload_stops _ hp hl
  · exact (exec_send ..).trans (sendForm_stops hp hl nofun nofun)
  · exact (exec_sendD ..).trans (sendForm_stops hp hl (fun _ => ⟨ha, ha'⟩) nofun)
  · exact (exec_sendT ..).trans (sendForm_stops hp hl nofun fun _ => ⟨hb, hb'⟩)
  · exact (exec_sendDT ..).trans (sendForm_stops hp hl (fun _ => ⟨ha, ha'⟩) fun _ => ⟨hb, hb'⟩)

end Sys2Proof.Machine
end

section

/-!
PROOFS. The encoder and the two decoders are inverse to each other (O1, O2 and O4), and the command decoder is the opcode
table (O3).
-/

namespace Sys2Proof

open Machine (onWire)

/-! ## Reserved operation codes -/

/-- Rule R82: the operation codes that are not reserved. -/
def assignedOps : List (BitVec 8) :=
  [0x01#8, 0x02#8, 0x03#8, 0x04#8, 0x05#8, 0x06#8, 0x07#8, 0x08#8, 0x09#8, 0x0A#8, 0x0B#8, 0x0C#8, 0x0D#8,
   0x10#8, 0x11#8, 0x12#8, 0x13#8, 0x18#8,
   0x20#8, 0x21#8, 0x22#8, 0x23#8, 0x24#8, 0x25#8, 0x26#8, 0x27#8,
   0x28#8, 0x29#8, 0x2A#8, 0x2B#8, 0x2C#8, 0x2D#8, 0x2E#8, 0x2F#8]

/-- Rule R83: every other operation code is decoded by its reserved row. -/
theorem decodeOp_of_not_assigned {op : BitVec 8} (h : op ∉ assignedOps) (k : BitVec 8) :
    decodeOp op k = .ok (decodeReserved op k) := by
  unfold decodeOp
  split
  case h_35 => rfl
  all_goals exact absurd h (by decide)

/-- An operation code with the fixed bits `c` of a row is these bits and the row's free ones. -/
theorem append_of_fixedBits {m n : Nat} {c : BitVec m} {op : BitVec (m + n)} (h : op.extractLsb' n m = c) :
    c ++ op.extractLsb' 0 n = op := h ▸ BitVec.extractLsb'_append_extractLsb'

/-- An operation code is assigned, or has the fixed bits of a reserved row, those of `OP = 0x00` last. -/
theorem assigned_or_fixedBits : ∀ op : BitVec 8, op ∈ assignedOps ∨ op.extractLsb' 1 7 = 0b0000111#7 ∨
    op.extractLsb' 2 6 = 0b000101#6 ∨ op = 0x19#8 ∨ op.extractLsb' 1 7 = 0b0001101#7 ∨
    op.extractLsb' 2 6 = 0b000111#6 ∨ op.extractLsb' 4 4 = 0b0011#4 ∨ op.extractLsb' 6 2 = 0b01#2 ∨
    op.extractLsb' 7 1 = 0b1#1 ∨ op = 0x00#8 := by decide

/-- The reserved row that a reserved operation code is decoded to is encoded with that code. -/
theorem encode_decodeReserved {op : BitVec 8} (h : op ∉ assignedOps) (k : BitVec 8) :
    encode (decodeReserved op k) = .command (cmdWord op k) := by
  have row {c : BitVec 8} (hc : c = op) : Encoded.command (cmdWord c k) = .command (cmdWord op k) := hc ▸ rfl
  unfold decodeReserved
  split_ifs with h1 h2 h3 h4 h5 h6 h7 h8
  · exact row (append_of_fixedBits h1)
  · exact row (append_of_fixedBits h2)
  · exact row h3.symm
  · exact row (append_of_fixedBits h4)
  · exact row (append_of_fixedBits h5)
  · exact row (append_of_fixedBits h6)
  · exact row (append_of_fixedBits h7)
  · exact row (append_of_fixedBits h8)
  · exact row (by simpa [*] using assigned_or_fixedBits op : op = 0x00#8).symm

theorem encode_of_decodeOp {op k : BitVec 8} {i : Instr} (h : decodeOp op k = .ok i) :
    encode i = .command (cmdWord op k) := by
  unfold decodeOp at h
  split at h
  case h_12 | h_13 =>
    split at h
    · subst k; cases h; rfl
    · cases h
  case h_35 =>
    cases h
    refine encode_decodeReserved ?_ k
    simp only [assignedOps, List.mem_cons, List.not_mem_nil, or_false, not_or]
    and_intros <;> assumption
  all_goals cases h; rfl

/-- Settles O2: a command word is its operation code and its bank field. -/
theorem encodeOfDecodeIsTheWord : Obligations.EncodeOfDecodeIsTheWord := by
  intro w i h
  rw [encode_of_decodeOp h, cmdWord_fields]

/-! ## Decoding what was encoded -/

theorem decodeOp_reserved0E (x : BitVec 1) (k : BitVec 8) : decodeOp (0b0000111#7 ++ x) k = .ok (.reserved0E x k) := by
  rw [decodeOp_of_not_assigned ?_, decodeReserved, if_pos ?_]
  · exact congrArg (Except.ok <| Instr.reserved0E · k) BitVec.extractLsb'_append_eq_right
  all_goals revert x; decide

theorem decodeOp_reserved14 (x : BitVec 2) (k : BitVec 8) : decodeOp (0b000101#6 ++ x) k = .ok (.reserved14 x k) := by
  rw [decodeOp_of_not_assigned ?_, decodeReserved, if_neg ?_, if_pos ?_]
  · exact congrArg (Except.ok <| Instr.reserved14 · k) BitVec.extractLsb'_append_eq_right
  all_goals revert x; decide

theorem decodeOp_reserved1A (x : BitVec 1) (k : BitVec 8) : decodeOp (0b0001101#7 ++ x) k = .ok (.reserved1A x k) := by
  rw [decodeOp_of_not_assigned ?_, decodeReserved, if_neg ?_, if_neg ?_, if_neg ?_, if_pos ?_]
  · exact congrArg (Except.ok <| Instr.reserved1A · k) BitVec.extractLsb'_append_eq_right
  all_goals revert x; decide

theorem decodeOp_reserved1C (x : BitVec 2) (k : BitVec 8) : decodeOp (0b000111#6 ++ x) k = .ok (.reserved1C x k) := by
  rw [decodeOp_of_not_assigned ?_, decodeReserved, if_neg ?_, if_neg ?_, if_neg ?_, if_neg ?_, if_pos ?_]
  · exact congrArg (Except.ok <| Instr.reserved1C · k) BitVec.extractLsb'_append_eq_right
  all_goals revert x; decide

theorem decodeOp_reserved30 (x : BitVec 4) (k : BitVec 8) : decodeOp (0b0011#4 ++ x) k = .ok (.reserved30 x k) := by
  rw [decodeOp_of_not_assigned ?_, decodeReserved, if_neg ?_, if_neg ?_, if_neg ?_, if_neg ?_, if_neg ?_, if_pos ?_]
  · exact congrArg (Except.ok <| Instr.reserved30 · k) BitVec.extractLsb'_append_eq_right
  all_goals revert x; decide

theorem decodeOp_reserved40 (x : BitVec 6) (k : BitVec 8) : decodeOp (0b01#2 ++ x) k = .ok (.reserved40 x k) := by
  rw [decodeOp_of_not_assigned ?_, decodeReserved, if_neg ?_, if_neg ?_, if_neg ?_, if_neg ?_, if_neg ?_, if_neg ?_,
    if_pos ?_]
  · exact congrArg (Except.ok <| Instr.reserved40 · k) BitVec.extractLsb'_append_eq_right
  all_goals revert x; decide

theorem decodeOp_reserved80 (x : BitVec 7) (k : BitVec 8) : decodeOp (0b1#1 ++ x) k = .ok (.reserved80 x k) := by
  rw [decodeOp_of_not_assigned ?_, decodeReserved, if_neg ?_, if_neg ?_, if_neg ?_, if_neg ?_, if_neg ?_, if_neg ?_,
    if_neg ?_, if_pos ?_]
  · exact congrArg (Except.ok <| Instr.reserved80 · k) BitVec.extractLsb'_append_eq_right
  all_goals revert x; decide

theorem decode_command {op k : BitVec 8} {i : Instr} (h : decodeOp op k = .ok i) :
    decode (.command (cmdWord op k)) = .ok (i, []) := by
  rw [decode, decodeCommand_cmdWord, h]
  rfl

/-- Rules R82 and R83: every command, its bank in range or not, is decoded from its word. -/
theorem decode_encode_command {i : Instr} (h : onWire i = false) : decode (encode i) = .ok (i, []) := by
  cases i with
  | clear k | setSource k | setDestination k | setType k | getSource k | getDestination k | getType k | setData k
  | getData k | setString k | getString k | setAddress | getAddress | send k | sendT k | sendD k | sendDT k
  | receive k | setInteger1U k | setInteger2U k | setInteger4U k | setInteger8U k | setInteger1S k | setInteger2S k
  | setInteger4S k | setInteger8S k | getInteger1U k | getInteger2U k | getInteger4U k | getInteger8U k
  | getInteger1S k | getInteger2S k | getInteger4S k | getInteger8S k | reserved00 k | reserved19 k =>
    exact decode_command rfl
  | reserved0E x k => exact decode_command (decodeOp_reserved0E x k)
  | reserved14 x k => exact decode_command (decodeOp_reserved14 x k)
  | reserved1A x k => exact decode_command (decodeOp_reserved1A x k)
  | reserved1C x k => exact decode_command (decodeOp_reserved1C x k)
  | reserved30 x k => exact decode_command (decodeOp_reserved30 x k)
  | reserved40 x k => exact decode_command (decodeOp_reserved40 x k)
  | reserved80 x k => exact decode_command (decodeOp_reserved80 x k)
  | frame rest => cases h
  | frameFalseSyn ll => cases h

/-! ## The stream decoder, case by case -/

/-- Rules R76 and R77: a LEN of 4 or more, and the body bytes that have arrived. -/
theorem decodeWire_candidate {len : Byte} (h : 4 ≤ len.toNat) (body : List Byte) :
    decodeWire (Config.SYN :: len :: body) = .ok (.frame (len :: body.take len.toNat), body.drop len.toNat) := by
  simp [decodeWire, Nat.not_lt.2 h]

/-- Rule R77: a LEN below 4. -/
theorem decodeWire_falseSyn {len : Byte} (h : len.toNat < 4) (body : List Byte) :
    decodeWire (Config.SYN :: len :: body) = .ok (.frameFalseSyn (len.extractLsb' 0 2), body) := by
  simp [decodeWire, h]

theorem decodeWire_noise {b : Byte} (h : b ≠ Config.SYN) (rest : List Byte) :
    decodeWire (b :: rest) = .error (.noise b) := if_neg h

/-- Rule R77: the two low bits of a LEN below 4 are the LEN. -/
theorem falseSynLen_toNat {len : Byte} (h : len.toNat < 4) : (len.extractLsb' 0 2).toNat = len.toNat := by
  rw [BitVec.extractLsb'_toNat, Nat.shiftRight_zero]
  exact Nat.mod_eq_of_lt h

theorem falseSynLen_setWidth {len : Byte} (h : len.toNat < 4) : (len.extractLsb' 0 2).setWidth 8 = len := by
  apply BitVec.eq_of_toNat_eq
  rw [BitVec.toNat_setWidth, falseSynLen_toNat h]
  exact Nat.mod_eq_of_lt len.isLt

/-- The LEN byte of a false SYN match is below 4. -/
theorem setWidth_falseSynLen_lt (ll : BitVec 2) : (ll.setWidth 8).toNat < 4 := by revert ll; decide

theorem extractLsb'_setWidth_falseSynLen (ll : BitVec 2) : (ll.setWidth 8).extractLsb' 0 2 = ll := by revert ll; decide

theorem candidateOK_cons {len : Byte} {body : List Byte} :
    candidateOK (len :: body) = true ↔ 4 ≤ len.toNat ∧ body.length ≤ len.toNat := by
  simp [candidateOK]

/-- Settles O1: a command goes through its two fields, a pattern of the stream through the case it belongs to. -/
theorem decodeOfEncodeIsTheInstruction : Obligations.DecodeOfEncodeIsTheInstruction := by
  intro i hw
  cases hi : onWire i with
  | false => exact decode_encode_command hi
  | true =>
    cases i with
    | frame rest =>
      cases rest with
      | nil => rfl
      | cons len body =>
        obtain ⟨h4, hb⟩ := candidateOK_cons.1 hw
        refine (decodeWire_candidate h4 body).trans ?_
        rw [List.take_of_length_le hb, List.drop_of_length_le hb]
    | frameFalseSyn ll =>
      refine (decodeWire_falseSyn (setWidth_falseSynLen_lt ll) []).trans ?_
      rw [extractLsb'_setWidth_falseSynLen]
    | _ => cases hi

/-- Settles O4: one equation for each way in which a stream can begin. -/
theorem wireDecoderSplitsTheStream : Obligations.WireDecoderSplitsTheStream := by
  refine ⟨fun bytes more i h => ?_, fun b rest hb => decodeWire_noise hb rest, rfl, fun len body hl => ?_,
    fun len body hl => decodeWire_candidate hl body⟩
  · match bytes with
    | [] => cases h
    | b :: rest =>
      by_cases hb : b = Config.SYN
      · subst hb
        match rest with
        | [] => cases h; exact ⟨rfl, _, rfl, rfl⟩
        | len :: body =>
          rcases Nat.lt_or_ge len.toNat 4 with hl | hl
          · rw [decodeWire_falseSyn hl] at h
            cases h
            exact ⟨rfl, _, rfl, by rw [falseSynLen_setWidth hl]; rfl⟩
          · rw [decodeWire_candidate hl] at h
            cases h
            exact ⟨candidateOK_cons.2 ⟨hl, List.length_take_le ..⟩, _, rfl,
              congrArg (Config.SYN :: len :: ·) (List.take_append_drop ..)⟩
      · rw [decodeWire_noise hb] at h
        cases h
  · exact ⟨_, falseSynLen_toNat hl, decodeWire_falseSyn hl body⟩

/-! ## The opcode table -/

theorem opField_and (w m : CmdWord) : opField (w &&& m) = opField w &&& opField m := BitVec.extractLsb'_and

theorem kField_and (w m : CmdWord) : kField (w &&& m) = kField w &&& kField m := BitVec.extractLsb'_and

theorem TableRow.covers_iff {r : TableRow} {w : CmdWord} : r.covers w = true ↔ w &&& r.mask = r.pattern := beq_iff_eq

/-- Two rows that some word could have the fixed bits of are one row. -/
theorem tableRows_disjoint : ∀ r ∈ tableRows, ∀ r' ∈ tableRows,
    r.pattern &&& r'.mask = r'.pattern &&& r.mask → r = r' := by decide

/-- A word falls in one row at most. -/
theorem TableRow.covers_unique {r r' : TableRow} {w : CmdWord} (hr : r ∈ tableRows) (hr' : r' ∈ tableRows)
    (h : r.covers w = true) (h' : r'.covers w = true) : r = r' := by
  rw [TableRow.covers_iff] at h h'
  refine tableRows_disjoint r hr r' hr' ?_
  rw [← h, ← h', BitVec.and_assoc, BitVec.and_assoc, BitVec.and_comm r.mask]

/-- Rule R82: SETADDRESS and GETADDRESS have rows that fix `K` to 0, and no other row has their operation codes. -/
theorem tableRows_addressOps : ∀ r ∈ tableRows, ∀ op ∈ [0x0C#8, 0x0D#8], op &&& opField r.mask = opField r.pattern →
    kField r.mask = 0xFF#8 ∧ kField r.pattern = 0x00#8 := by decide

theorem encodesInItsRow : ∀ i : Instr, Laws.EncodesInItsRow.Statement i
  | .clear k => Laws.EncodesInItsRow.clear k
  | .setSource k => Laws.EncodesInItsRow.setSource k
  | .setDestination k => Laws.EncodesInItsRow.setDestination k
  | .setType k => Laws.EncodesInItsRow.setType k
  | .getSource k => Laws.EncodesInItsRow.getSource k
  | .getDestination k => Laws.EncodesInItsRow.getDestination k
  | .getType k => Laws.EncodesInItsRow.getType k
  | .setData k => Laws.EncodesInItsRow.setData k
  | .getData k => Laws.EncodesInItsRow.getData k
  | .setString k => Laws.EncodesInItsRow.setString k
  | .getString k => Laws.EncodesInItsRow.getString k
  | .setAddress => Laws.EncodesInItsRow.setAddress
  | .getAddress => Laws.EncodesInItsRow.getAddress
  | .send k => Laws.EncodesInItsRow.send k
  | .sendT k => Laws.EncodesInItsRow.sendT k
  | .sendD k => Laws.EncodesInItsRow.sendD k
  | .sendDT k => Laws.EncodesInItsRow.sendDT k
  | .receive k => Laws.EncodesInItsRow.receive k
  | .setInteger1U k => Laws.EncodesInItsRow.setInteger1U k
  | .setInteger2U k => Laws.EncodesInItsRow.setInteger2U k
  | .setInteger4U k => Laws.EncodesInItsRow.setInteger4U k
  | .setInteger8U k => Laws.EncodesInItsRow.setInteger8U k
  | .setInteger1S k => Laws.EncodesInItsRow.setInteger1S k
  | .setInteger2S k => Laws.EncodesInItsRow.setInteger2S k
  | .setInteger4S k => Laws.EncodesInItsRow.setInteger4S k
  | .setInteger8S k => Laws.EncodesInItsRow.setInteger8S k
  | .getInteger1U k => Laws.EncodesInItsRow.getInteger1U k
  | .getInteger2U k => Laws.EncodesInItsRow.getInteger2U k
  | .getInteger4U k => Laws.EncodesInItsRow.getInteger4U k
  | .getInteger8U k => Laws.EncodesInItsRow.getInteger8U k
  | .getInteger1S k => Laws.EncodesInItsRow.getInteger1S k
  | .getInteger2S k => Laws.EncodesInItsRow.getInteger2S k
  | .getInteger4S k => Laws.EncodesInItsRow.getInteger4S k
  | .getInteger8S k => Laws.EncodesInItsRow.getInteger8S k
  | .reserved00 k => Laws.EncodesInItsRow.reserved00 k
  | .reserved0E x k => Laws.EncodesInItsRow.reserved0E x k
  | .reserved14 x k => Laws.EncodesInItsRow.reserved14 x k
  | .reserved19 k => Laws.EncodesInItsRow.reserved19 k
  | .reserved1A x k => Laws.EncodesInItsRow.reserved1A x k
  | .reserved1C x k => Laws.EncodesInItsRow.reserved1C x k
  | .reserved30 x k => Laws.EncodesInItsRow.reserved30 x k
  | .reserved40 x k => Laws.EncodesInItsRow.reserved40 x k
  | .reserved80 x k => Laws.EncodesInItsRow.reserved80 x k
  | .frame rest => Laws.EncodesInItsRow.frame rest
  | .frameFalseSyn ll => Laws.EncodesInItsRow.frameFalseSyn ll

/-- A word that decodes falls in the row of the instruction it decodes to. -/
theorem exists_row_of_decodeCommand {w : CmdWord} {i : Instr} (h : decodeCommand w = .ok i) :
    ∃ r ∈ tableRows, r.mnemonic = i.mnemonic ∧ r.covers w = true := by
  have hs := encodesInItsRow i
  rwa [Laws.EncodesInItsRow.Statement, encodeOfDecodeIsTheWord w i h] at hs

/-- Rule R83: a word of SETADDRESS or GETADDRESS with `K` not 0 falls in no row. -/
theorem covers_addressCommandWithK {w : CmdWord} (ho : opField w = 0x0C#8 ∨ opField w = 0x0D#8) (hk : kField w ≠ 0#8)
    {r : TableRow} (hr : r ∈ tableRows) : r.covers w = false := by
  by_contra hc
  have hw := TableRow.covers_iff.1 ((Bool.not_eq_false _).mp hc)
  obtain ⟨hm, hp⟩ := tableRows_addressOps r hr (opField w) (by simpa using ho) (by rw [← opField_and, hw])
  have hkw : kField w &&& kField r.mask = kField r.pattern := by rw [← kField_and, hw]
  rw [hm, hp] at hkw
  exact hk ((BitVec.and_allOnes (x := kField w)).symm.trans hkw)

/-- Rule R83: the decoder rejects the words of SETADDRESS and GETADDRESS with `K` not 0, by name. -/
theorem decodeCommand_addressCommandWithK {w : CmdWord} (ho : opField w = 0x0C#8 ∨ opField w = 0x0D#8)
    (hk : kField w ≠ 0#8) : decodeCommand w = .error (.addressCommandWithK (opField w) (kField w)) := by
  unfold decodeCommand
  rcases ho with ho | ho <;> rw [ho] <;> exact if_neg hk

/-- The decoder rejects no other word. -/
theorem addressCommandWithK_of_error {w : CmdWord} {e : DecodeError} (h : decodeCommand w = .error e) :
    (opField w = 0x0C#8 ∨ opField w = 0x0D#8) ∧ kField w ≠ 0#8 := by
  unfold decodeCommand decodeOp at h
  split at h
  case h_12 ho =>
    split at h
    · cases h
    · exact ⟨.inl ho, ‹_›⟩
  case h_13 ho =>
    split at h
    · cases h
    · exact ⟨.inr ho, ‹_›⟩
  all_goals cases h

/-- Settles O3: a word that decodes falls in its instruction's row and in no other, and the rest are rejected by name. -/
theorem decoderFollowsTheOpcodeTable : Obligations.DecoderFollowsTheOpcodeTable := by
  refine ⟨fun w r hr hc => ?_, fun w => ⟨fun hn => ?_, fun ⟨ho, hk⟩ r hr => covers_addressCommandWithK ho hk hr⟩,
    fun w ho hk => decodeCommand_addressCommandWithK ho hk⟩
  · cases hd : decodeCommand w with
    | ok i =>
      obtain ⟨r', hr', hm, hc'⟩ := exists_row_of_decodeCommand hd
      exact ⟨i, rfl, by rw [← hm, TableRow.covers_unique hr hr' hc hc']⟩
    | error e =>
      obtain ⟨ho, hk⟩ := addressCommandWithK_of_error hd
      rw [covers_addressCommandWithK ho hk hr] at hc
      cases hc
  · cases hd : decodeCommand w with
    | ok i =>
      obtain ⟨r, hr, -, hc⟩ := exists_row_of_decodeCommand hd
      rw [hn r hr] at hc
      cases hc
    | error e => exact addressCommandWithK_of_error hd

end Sys2Proof
end

section

/-!
PROOFS. Illegal command words (O17 and O18) and the layout of a frame (O31).
-/

namespace Sys2Proof.Machine

/-! ## Illegal command words -/

/-- Rule R83: an instruction of a reserved row, and a command that names a bank out of range, are refused. -/
theorem exec_illegal {i : Instr} (h : ReservedInstr i ∨ ∃ c ∈ bankCommands, ∃ k : BitVec 8, 2 ≤ k.toNat ∧ i = c k)
    (s : State) : exec i s = .next s.illegalCommand := by
  rcases h with hr | ⟨c, hc, k, hk, rfl⟩
  · exact hr.exec s
  · exact exec_bankOutOfRange hk s c hc

/-- Settles O17: each of them is refused, and a refusal ends the command and does nothing else. -/
theorem illegalCommandsEndIllegal : Obligations.IllegalCommandsEndIllegal := by
  intro s i h
  exact ⟨_, exec_illegal h s, Ends.complete .., SameBanks.of_eq fun _ => rfl, SameOutsideBanks.complete ..⟩

/-- Rule R82: a command that names a bank carries the bank in `K` and an operation code that is neither reserved nor one of the
address commands'. -/
theorem encode_bankCommand : ∀ c ∈ bankCommands, ∃ op : BitVec 8,
    (∀ k, encode (c k) = .command (cmdWord op k)) ∧ ∀ k, IllegalWord (cmdWord op k) → 2 ≤ k.toNat := by
  intro c hc
  fin_cases hc
  all_goals exact ⟨_, fun _ => rfl, fun k h => by simpa [IllegalWord] using h⟩

/-- Rule R83: an illegal word that decodes is decoded to an instruction that is refused. -/
theorem exec_of_illegalWord {w : CmdWord} {i : Instr} (hw : IllegalWord w) (hd : decodeCommand w = .ok i) (s : State) :
    exec i s = .next s.illegalCommand := by
  have he := encodeOfDecodeIsTheWord w i hd
  rcases command_cases (decodeCommand_onWire hd) with ⟨c, hc, k, rfl⟩ | rfl | rfl | hr
  · obtain ⟨op, hop, hk⟩ := encode_bankCommand c hc
    cases (hop k).symm.trans he
    exact exec_bankOutOfRange (hk k hw) s c hc
  · cases he
    exact absurd hw (by simp [IllegalWord])
  · cases he
    exact absurd hw (by simp [IllegalWord])
  · exact hr.exec s

/-- Settles O18: the word is rejected by the decoder, or decoded to an instruction that is refused. -/
theorem stepRefusesEveryIllegalWord : Obligations.StepRefusesEveryIllegalWord := by
  intro s c rest hn hb hc hw
  obtain ⟨hladdr, hrx, htx, hstreams, -⟩ := SameOutsideBanks.complete (s.tick.issued c rest) FaultName.illegalCmd.code
    (.fault .illegalCmd .none)
  refine ⟨_, ?_, Ends.complete (s.tick.issued c rest) .., SameBanks.of_eq fun _ => rfl, hladdr, hrx, htx, hstreams, rfl⟩
  rw [step_noReset hn, advance_between (s := s.tick) hb]
  cases hd : decodeCommand c.word with
  | ok i => exact (issue_ok (s := s.tick) hc hd).trans (exec_of_illegalWord hw hd _)
  | error e => exact issue_error (s := s.tick) hc hd

/-! ## The frame -/

/-- Settles O31: the offsets of `EncodeFrame`. -/
theorem frameLayoutIsTheSpecs : Obligations.FrameLayoutIsTheSpecs := by
  intro dst src typ p hp
  refine ⟨encodeFrame_length .., rfl, ⟨_, rfl, ?_⟩, rfl, rfl, rfl, fun i hi => ?_, chk ([dst, src, typ] ++ p), ?_, ?_⟩
  · rw [lenByte, BitVec.toNat_ofNat]
    exact Nat.mod_eq_of_lt (Nat.lt_of_le_of_lt (Nat.add_le_add_right hp 4) (by decide))
  · simp [encodeFrame, Nat.add_comm 5 i, List.getElem?_append, hi]
  · simp [encodeFrame, Nat.add_comm 5]
  · simp [chk_toNat, Nat.add_assoc]

end Sys2Proof.Machine
end

section

/-!
PROOFS. The patterns of the receive stream: what their bytes do to the receive engine (O47 and O49).
-/

namespace Sys2Proof.Machine

/-! ## The other patterns and states -/

/-- Settles O49: an engine that seeks SYN takes the bytes one by one, an idle one takes none. -/
theorem frameBytesInTheOtherStates : Obligations.FrameBytesInTheOtherStates := by
  intro s
  refine ⟨fun ll h => ?_, fun h => ?_, fun rest h => ?_, fun ll h => ?_⟩
  · rw [exec_frameFalseSyn, deliver_cons _ _ (by simp [h]), rxByte_syn h, deliver_cons _ _ (by simp),
      rxByte_falseSyn rfl (setWidth_falseSynLen_lt ll), deliver_nil, ← h]
  · rw [exec_frame, deliver_cons _ _ (by simp [h]), rxByte_syn h]
    rfl
  · rw [exec_frame, deliver_idle _ h]
  · rw [exec_frameFalseSyn, deliver_idle _ h]
    rfl

/-! ## A complete candidate -/

/-- Rule R195: the receive engine after the LEN byte `len` and the body bytes `bs` of a candidate, `buf` the staging buffer. -/
def State.staged (s : State) (len : Byte) (bs : List Byte) (buf : Memory) : State :=
  { s with rxs := .readBody, rxlen := len, rxcnt := BitVec.ofNat 8 bs.length, rxsum := chk bs, rxbuf := buf }

theorem State.staged_rxcnt (s : State) {len : Byte} {bs : List Byte} (buf : Memory) (h : bs.length < len.toNat) :
    (s.staged len bs buf).rxcnt.toNat = bs.length :=
  (BitVec.toNat_ofNat ..).trans (Nat.mod_eq_of_lt (h.trans len.isLt))

/-- Rule R195: `RXCNT` and `RXSUM` are the count and the checksum of the body bytes taken. -/
theorem State.bodyRun_staged (s : State) {len : Byte} {bs : List Byte} (h : bs.length < len.toNat) :
    bodyRun bs (s.staged len [] s.rxbuf) = s.staged len bs (bodyRun bs (s.staged len [] s.rxbuf)).rxbuf := by
  have h0 : (s.staged len [] s.rxbuf).rxcnt.toNat = 0 := rfl
  have hcnt : (bodyRun bs (s.staged len [] s.rxbuf)).rxcnt = BitVec.ofNat 8 bs.length := by
    have hrun := bodyRun_rxcnt bs (s := s.staged len [] s.rxbuf) (by rw [h0]; omega)
    rw [h0, Nat.zero_add] at hrun
    exact BitVec.eq_of_toNat_eq (hrun.trans (s.staged_rxcnt s.rxbuf h).symm)
  conv_lhs => rw [bodyRun_frame bs (s := s.staged len [] s.rxbuf) rfl, hcnt,
    bodyRun_rxsum bs [] (s := s.staged len [] s.rxbuf) rfl]
  rfl

/-- Rule R195: the bytes of an incomplete candidate are staged, those that `RXBUF` has room for. -/
theorem deliver_staged {s : State} {len : Byte} {bs : List Byte} (h : s.rxs = .seekSyn) (h4 : 4 ≤ len.toNat)
    (hw : s.rxbuf.wf 131 = true) (hl : bs.length < len.toNat) :
    ∃ buf : Memory, (∀ i (hi : i < bs.length), i < 131 → buf.read i = bs[i]) ∧
      ∀ more, deliver (Config.SYN :: len :: (bs ++ more)) s = deliver more (s.staged len bs buf) := by
  have h0 : (s.staged len [] s.rxbuf).rxcnt.toNat = 0 := rfl
  refine ⟨(bodyRun bs (s.staged len [] s.rxbuf)).rxbuf, fun i hi h131 => ?_, fun more => ?_⟩
  · have hread := bodyRun_read bs (s := s.staged len [] s.rxbuf) hw (by rw [h0]; omega) hi (by rwa [h0, Nat.zero_add])
    rwa [h0, Nat.zero_add] at hread
  · rw [deliver_cons _ _ (by simp [h]), rxByte_syn h, deliver_cons _ _ (by simp), rxByte_len rfl h4, ← s.bodyRun_staged hl]
    exact deliver_append_body bs more (s := s.staged len [] s.rxbuf) rfl (by rwa [h0, Nat.zero_add])

/-- An answer of the receive transport touches no bank but the one the RECEIVE names. -/
theorem RxEffect.sameBanksBut {s t : State} (h : RxEffect s t) : SameBanksBut s.rxk s t := by
  cases h with
  | delivers _ _ => exact fun k => SameBanksBut.updBank_complete s s.rxk _ _ _ k
  | scans _ _ | begins _ _ | takes _ _ _ | ends _ _ _ => exact SameBanksBut.of_eq fun _ _ => rfl

/-- Rule R191: the packet of a verified frame, read from the staging buffer. -/
theorem Packet.materialize_staged {p : Packet} (hp : p.pay.wf 128 = true) {len : Byte} {bs : List Byte} {buf : Memory}
    (hbuf : ∀ i (hi : i < bs.length), i < 131 → buf.read i = bs[i]) (hl : bs.length + 1 = len.toNat) (h4 : 4 ≤ len.toNat)
    (h132 : len.toNat ≤ 132) (c : Byte) : (p.materialize buf (payloadLength len)).abs =
      ⟨(bs ++ [c]).getD 1 0x00#8, (bs ++ [c]).getD 0 0x00#8, (bs ++ [c]).getD 2 0x00#8,
        some (((bs ++ [c]).drop 3).take (len.toNat - 4))⟩ := by
  have hread : ∀ i, i < 3 → buf.read i = (bs ++ [c]).getD i 0x00#8 := by
    intro i hi
    rw [hbuf i (by omega) (by omega), List.getD_append _ _ _ _ (by omega), List.getD_eq_getElem]
  have hpay : buf.readN 3 (len.toNat - 4) = ((bs ++ [c]).drop 3).take (len.toNat - 4) := by
    refine List.ext_getElem ?_ fun j hj _ => ?_
    · rw [Memory.readN_length, List.length_take, List.length_drop, List.length_append, List.length_singleton]
      omega
    rw [Memory.readN_length] at hj
    rw [Memory.readN_getElem, hbuf (3 + j) (by omega) (by omega), List.getElem_take, List.getElem_drop,
      List.getElem_append_left]
  rw [Packet.materialize_abs hp buf (n := payloadLength len) (Nat.sub_le_of_le_add h132), hread 0 (by decide),
    hread 1 (by decide), hread 2 (by decide)]
  exact congrArg (AbsPacket.mk _ _ _ <| some ·) hpay

/-- Settles O47: all bytes but the last are staged, and the last one is the checksum that judges them. -/
theorem completeFrameIsJudged : Obligations.CompleteFrameIsJudged := by
  intro s len body h h4 hb hw hp
  obtain rfl | ⟨bs, c, rfl⟩ := body.eq_nil_or_concat'
  · rw [← hb] at h4
    cases h4
  rw [List.length_append, List.length_singleton] at hb
  obtain ⟨buf, hbuf, hdel⟩ := deliver_staged h h4 hw (bs := bs) (by omega)
  have hr : (s.staged len bs buf).rxs = .readBody := rfl
  have hbusy : (s.staged len bs buf).rxs ≠ .idle := nofun
  have hcnt : (s.staged len bs buf).rxcnt.toNat = len.toNat - 1 := by
    rw [s.staged_rxcnt buf (by omega), ← hb, Nat.add_sub_cancel]
  rw [← hb, Nat.add_sub_cancel, List.take_left, List.getD_append_right _ _ _ _ le_rfl, Nat.sub_self,
    List.getD_cons_zero, hb]
  refine ⟨rxByte c (s.staged len bs buf), ?_, rxByte_laddr .., ⟨rxByte_rx .., rxByte_tx .., rxByte_txAns ..⟩,
    ⟨rxByte_cmds .., rxByte_portA .., rxByte_portB .., rxByte_portData .., rxByte_resetLine ..⟩,
    (rxByte_effect c hbusy).sameBanksBut, ⟨rxByte_txn .., rxByte_txpos .., fun i => ?_⟩, fun hg => ?_,
    fun hg hl => ?_, fun hg hl => ?_⟩
  · rw [exec_frame, hdel, deliver_cons c [] hbusy, deliver_nil]
  · rw [rxByte_txbuf]
    rfl
  · rw [rxByte_mismatch hr hcnt (Ne.symm hg)]
    exact ⟨rfl, rfl, rfl, rfl, SameBanks.of_eq fun _ => rfl⟩
  · obtain rfl : chk bs = c := hg
    refine (rxByte_verified hr hcnt hl).symm ▸ ⟨Ends.updBank_complete (s.staged len bs buf) .., ?_⟩
    rw [State.bank_finish]
    exact (congrArg Packet.abs (State.bank_updBank_self ..)).trans (Packet.materialize_staged hp hbuf hb h4 hl _)
  · obtain rfl : chk bs = c := hg
    refine (rxByte_oversize hr hcnt hl).symm ▸ ⟨Ends.complete (s.staged len bs buf) .., SameBanks.of_eq fun _ => rfl⟩

end Sys2Proof.Machine
end

section

/-!
PROOFS. The header and address commands (O11 to O14).
-/

namespace Sys2Proof.Machine

/-! ## CLEAR -/

/-- Settles O11: CLEAR writes the cleared registers to its bank and ends. -/
theorem clearEmptiesTheBank : Obligations.ClearEmptiesTheBank := by
  intro s j
  obtain ⟨-, -, -, hreset⟩ := resetStateHoldsTheResetValues.1 j
  have hbank : ((s.updBank j Packet.cleared).finish .ok).bank j = (s.bank j).cleared := State.bank_updBank_self ..
  refine ⟨_, (exec_clear ..).trans (withBank_bankField ..), Ends.updBank_complete .., ?_⟩
  rw [hbank, hreset]
  exact ⟨rfl, rfl, rfl, rfl, rfl, SameBytes.refl _, SameBanksBut.updBank_complete s j _ _ _,
    SameOutsideBanks.updBank_complete .., rfl⟩

/-! ## Operands out of range -/

/-- Rules R102 to R104, R108 and R221: an operand that is no unsigned byte ends the command, whatever it would store. -/
theorem storeCheckedByte_faults {s : State} (put : Byte → State) (h : s.portA < 0 ∨ 255 < s.portA) :
    ∃ t, storeCheckedByte s put = .next t ∧ EndsFault s t .range (.bounds 0 255 s.portA) ∧ SameBanks s t ∧
      SameOutsideBanks s t := by
  have hv : ¬ RangeOK s.portA 1 .U := by
    rw [rangeOK_byte]
    omega
  exact ⟨_, storeCheckedByte_range put hv, Ends.complete .., SameBanks.complete s _ _, SameOutsideBanks.complete ..⟩

/-! ## The header setters -/

theorem KeepsPayload.samePayload {g : Packet → Packet} (h : KeepsPayload g) (p : Packet) : SamePayload p (g p) := by
  obtain ⟨hpset, hplen, hpay⟩ := h p
  exact ⟨hpset, hplen, hpay ▸ SameBytes.refl _⟩

theorem forall_headerSetters {P : (BitVec 8 → Instr) × (Packet → Byte) → Prop} : (∀ c ∈ headerSetters, P c) ↔
    P (.setSource, Packet.src) ∧ P (.setDestination, Packet.dst) ∧ P (.setType, Packet.typ) := by
  simp [headerSetters]

/-- Rules R102 to R104: the setter `c.1` stores its operand with `put` in the register `c.2`, and in no register of another
setter. -/
structure StoresHeaderByte (c : (BitVec 8 → Instr) × (Packet → Byte)) (put : Byte → Packet → Packet) : Prop where
  exec : ∀ k s, exec (c.1 k) s = setHeaderByte put k s
  writes : ∀ b, WritesHeader (put b)
  stored : ∀ b p, c.2 (put b p) = b
  others : ∀ b p, ∀ d ∈ headerSetters, d.2 (put b p) ≠ d.2 p → d.1 = c.1

theorem StoresHeaderByte.setSource : StoresHeaderByte (.setSource, Packet.src) Packet.putSrc where
  exec := exec_setSource
  writes b := ⟨b, .inl rfl⟩
  stored _ _ := rfl
  others _ _ := forall_headerSetters.2 ⟨fun _ => rfl, absurd rfl, absurd rfl⟩

theorem StoresHeaderByte.setDestination : StoresHeaderByte (.setDestination, Packet.dst) Packet.putDst where
  exec := exec_setDestination
  writes b := ⟨b, .inr (.inl rfl)⟩
  stored _ _ := rfl
  others _ _ := forall_headerSetters.2 ⟨absurd rfl, fun _ => rfl, absurd rfl⟩

theorem StoresHeaderByte.setType : StoresHeaderByte (.setType, Packet.typ) Packet.putTyp where
  exec := exec_setType
  writes b := ⟨b, .inr (.inr rfl)⟩
  stored _ _ := rfl
  others _ _ := forall_headerSetters.2 ⟨absurd rfl, absurd rfl, fun _ => rfl⟩

theorem headerSetters_store : ∀ c ∈ headerSetters, ∃ put, StoresHeaderByte c put :=
  forall_headerSetters.2 ⟨⟨_, .setSource⟩, ⟨_, .setDestination⟩, ⟨_, .setType⟩⟩

/-- Settles O12: every setter checks its operand and then writes its own register. -/
theorem headerSettersCheckThenStore : Obligations.HeaderSettersCheckThenStore := by
  intro c hc s j
  obtain ⟨put, hput⟩ := headerSetters_store c hc
  let g := put (byteOf s.portA)
  have hbank : ((s.updBank j g).finish .ok).bank j = g (s.bank j) := State.bank_updBank_self ..
  rw [hput.exec, setHeaderByte, withBank_bankField]
  refine ⟨fun h0 h1 => ⟨_, storeCheckedByte_ok _ ((rangeOK_byte _).2 ⟨h0, h1⟩), Ends.updBank_complete .., ?_⟩,
    storeCheckedByte_faults _⟩
  rw [hbank, hput.stored]
  exact ⟨byteOf_toNat h0 h1, fun d hd hne => congrFun (hput.others _ _ d hd hne),
    (hput.writes _).keepsPayload.samePayload _, SameBanksBut.updBank_complete s j _ _ _,
    SameOutsideBanks.updBank_complete ..⟩

/-! ## The header getters -/

theorem exec_headerGetters : ∀ c ∈ headerGetters, ∀ k s, exec (c.1 k) s = getHeaderByte c.2 k s := by
  simp only [headerGetters, List.forall_mem_cons]
  exact ⟨exec_getSource, exec_getDestination, exec_getType, nofun⟩

/-- Settles O13: a getter ends with the byte it reads, and does nothing else. -/
theorem headerGettersReturnTheByte : Obligations.HeaderGettersReturnTheByte := by
  intro c hc s j
  exact ⟨_, (exec_headerGetters c hc _ s).trans (withBank_bankField ..), Ends.complete .., SameBanks.complete s _ _,
    SameOutsideBanks.complete ..⟩

/-! ## The local address -/

/-- Settles O14: SETADDRESS is a checked store to `LADDR`, GETADDRESS ends with `LADDR`. -/
theorem addressCommandsReachLaddr : Obligations.AddressCommandsReachLaddr := by
  intro s
  rw [exec_setAddress]
  refine ⟨fun h0 h1 => ?_, storeCheckedByte_faults _, ?_⟩
  · let u : State := { s with laddr := byteOf s.portA }
    obtain ⟨-, hrx, htx, hstreams, hports⟩ := SameOutsideBanks.complete u codeOk .ok
    exact ⟨_, storeCheckedByte_ok _ ((rangeOK_byte _).2 ⟨h0, h1⟩), Ends.complete u .., byteOf_toNat h0 h1,
      SameBanks.of_eq fun _ => rfl, hrx, htx, hstreams, hports⟩
  · exact ⟨_, exec_getAddress s, Ends.complete .., SameBanks.complete s _ _, SameOutsideBanks.complete ..⟩

end Sys2Proof.Machine
end

section

/-!
PROOFS. The raw payload commands SETDATA and GETDATA (O19 and O20).
-/

namespace Sys2Proof.Machine

/-! ## Storing a payload -/

/-- Rule R17: `PAY` holds the payload of a bank in index order. -/
theorem Packet.pay_read_of_abs {p : Packet} {bs : List Byte} (h : p.abs.payload = some bs) {i : Nat}
    (hi : i < bs.length) : p.pay.read i = bs[i] := by
  obtain ⟨-, rfl⟩ := Packet.abs_payload_some.1 h
  rw [Memory.readN_getElem, Nat.zero_add]

/-- Rule R120: a payload of up to 128 bytes replaces the one before, and only that. -/
theorem storePayload_stores {s : State} {j : BankIx} (h : (s.bank j).pay.wf 128 = true) {bs : List Byte}
    (hl : bs.length ≤ 128) : EndsOk s (storePayload j bs s) .ok ∧
      ((storePayload j bs s).bank j).abs.payload = some bs ∧
      SameHeader (s.bank j) ((storePayload j bs s).bank j) ∧ SameBanksBut j s (storePayload j bs s) ∧
      SameOutsideBanks s (storePayload j bs s) := by
  rw [storePayload_ok j s hl, State.bank_finish, State.bank_updBank_self]
  exact ⟨Ends.updBank_complete .., Packet.store_abs h hl, SameHeader.refl _, SameBanksBut.updBank_complete s j _ _ _,
    SameOutsideBanks.updBank_complete ..⟩

/-- Rules R120 and R222: a longer payload ends the command and is not stored. -/
theorem storePayload_faults (s : State) (j : BankIx) {bs : List Byte} (hl : 128 < bs.length) :
    EndsFault s (storePayload j bs s) .overflow (.limit 128) ∧ SameBanks s (storePayload j bs s) ∧
      SameOutsideBanks s (storePayload j bs s) := by
  rw [storePayload_overflow j s hl]
  exact ⟨Ends.complete .., SameBanks.complete s _ _, SameOutsideBanks.complete ..⟩

/-- Settles O19: SETDATA stores the bytes on DATA; PSET, PLEN and PAY are read off the payload that the bank then has. -/
theorem setDataReplacesThePayload : Obligations.SetDataReplacesThePayload := by
  intro s j h
  have hexec : exec (.setData (bankField j)) s = .next (storePayload j s.portData s) :=
    (exec_setData ..).trans (withBank_bankField ..)
  refine ⟨fun hl => ?_, fun hl => ⟨_, hexec, storePayload_faults s j hl⟩⟩
  obtain ⟨hends, hpay, hframe⟩ := storePayload_stores h hl
  refine ⟨_, hexec, hends, (Packet.abs_payload_some.1 hpay).1, Packet.abs_payload_length hpay, fun i b hb => ?_, hframe⟩
  obtain ⟨hi, rfl⟩ := List.getElem?_eq_some_iff.1 hb
  exact Packet.pay_read_of_abs hpay hi

/-! ## Reading a payload -/

/-- Rule R223: a payload read of a bank without a payload ends with NoDataError, whatever is done with the bytes. -/
theorem readPayload_faults {s : State} {j : BankIx} (use : List Byte → State) (h : (s.bank j).pset = false) :
    ∃ t, readPayload j s use = .next t ∧ EndsFault s t .nodata .none ∧ SameBanks s t ∧ SameOutsideBanks s t :=
  ⟨_, readPayload_unset use h, Ends.complete .., SameBanks.complete s _ _, SameOutsideBanks.complete ..⟩

/-- Settles O20: GETDATA ends with the bytes that the whole-payload read gives, and does nothing else. -/
theorem getDataReturnsThePayload : Obligations.GetDataReturnsThePayload := by
  intro s j
  rw [exec_getData, withBank_bankField]
  refine ⟨readPayload_faults _, fun hp hl => ⟨_, _, readPayload_set _ hp hl, Ends.complete .., Memory.readN_length ..,
    fun i hi => ?_, SameBanks.complete s _ _, SameOutsideBanks.complete ..⟩⟩
  rw [List.getElem?_eq_getElem hi, Memory.readN_getElem, Nat.zero_add]

end Sys2Proof.Machine
end

section

/-!
PROOFS. The integer commands SETINTEGER and GETINTEGER, and the serializer they are made of (O23 and O25 to O27).
-/

namespace Sys2Proof.Machine

/-! ## The deserializer -/

/-- Rule R100: one bit of `n` bytes is the sign, where they hold a signed integer. -/
theorem two_pow_bits {n : Nat} (hn : 1 ≤ n) : (2 : Int) ^ (8 * n) = 2 * 2 ^ (8 * n - 1) := by
  rw [← pow_succ', Nat.sub_add_cancel (by omega)]

/-- Rule R100: the range of a form has `2^(8n)` values. -/
theorem rangeMax_sub_rangeMin {n : Nat} (hn : 1 ≤ n) (sg : Sign) :
    rangeMax n sg - rangeMin n sg = 2 ^ (8 * n) - 1 := by
  cases sg with
  | U => simp [rangeMax, rangeMin]
  | S =>
    rw [rangeMax, rangeMin, two_pow_bits hn]
    ring

/-- Values in the range of one form that agree modulo `2^(8n)` are equal. -/
theorem RangeOK.eq_of_emod_eq {n : Nat} {sg : Sign} (hn : 1 ≤ n) {v w : Int} (hv : RangeOK v n sg) (hw : RangeOK w n sg)
    (h : v % 2 ^ (8 * n) = w % 2 ^ (8 * n)) : v = w := by
  obtain ⟨hv0, hv1⟩ := hv
  obtain ⟨hw0, hw1⟩ := hw
  have hspan := rangeMax_sub_rangeMin hn sg
  have hlt : |v - w| < 2 ^ (8 * n) := abs_lt.2 ⟨by omega, by omega⟩
  exact sub_eq_zero.1 (Int.eq_zero_of_abs_lt_dvd (Int.ModEq.dvd h.symm) hlt)

/-- The number that `n` bytes spell has `8n` bits. -/
theorem leNat_lt_two_pow {n : Nat} {bs : List Byte} (h : bs.length = n) : (leNat bs : Int) < 2 ^ (8 * n) := by
  have hlt : leNat bs < 2 ^ (8 * n) := by
    rw [Nat.pow_mul, ← h]
    exact leNat_lt bs
  exact_mod_cast hlt

/-- Rule R131: a deserialized value is, modulo `2^(8n)`, the number that its bytes spell. -/
theorem leDes_emod {n : Nat} (sg : Sign) {bs : List Byte} (h : bs.length = n) :
    leDes n sg bs % 2 ^ (8 * n) = leNat bs := by
  have hsmall : (leNat bs : Int) % 2 ^ (8 * n) = leNat bs :=
    Int.emod_eq_of_lt (Int.natCast_nonneg _) (leNat_lt_two_pow h)
  cases sg with
  | U => exact hsmall
  | S =>
    rw [leDes]
    split
    · exact hsmall
    · rw [Int.sub_emod_right, hsmall]

/-- Rules R100 and R131: a deserialized value is in the range of its form. -/
theorem leDes_rangeOK {n : Nat} (hn : 1 ≤ n) (sg : Sign) {bs : List Byte} (h : bs.length = n) :
    RangeOK (leDes n sg bs) n sg := by
  have h0 : (0 : Int) ≤ leNat bs := Int.natCast_nonneg _
  have hlt := leNat_lt_two_pow h
  cases sg with
  | U => exact ⟨h0, Int.le_sub_one_of_lt hlt⟩
  | S =>
    rw [two_pow_bits hn] at hlt
    rw [RangeOK, rangeMin, rangeMax, leDes]
    split
    next hs =>
      have hs' : (leNat bs : Int) < 2 ^ (8 * n - 1) := by exact_mod_cast hs
      omega
    next hs =>
      have hs' : (2 : Int) ^ (8 * n - 1) ≤ leNat bs := by exact_mod_cast Nat.le_of_not_lt hs
      rw [two_pow_bits hn]
      omega

/-- Rule R136: a value in range is what its encoding decodes to. -/
theorem leDes_leSer {n : Nat} {sg : Sign} (hn : 1 ≤ n) {v : Int} (hv : RangeOK v n sg) :
    leDes n sg (leSer n v) = v :=
  RangeOK.eq_of_emod_eq hn (leDes_rangeOK hn sg (leSer_length n v)) hv <|
    (leDes_emod sg (leSer_length n v)).trans (leNat_leSer n v)

/-- Rule R136: a byte sequence is the encoding of what it decodes to. -/
theorem leSer_leDes {n : Nat} (sg : Sign) {bs : List Byte} (h : bs.length = n) : leSer n (leDes n sg bs) = bs :=
  leNat_injective ((leSer_length ..).trans h.symm) <|
    Int.ofNat.inj ((leNat_leSer n _).trans (leDes_emod sg h))

/-- Settles O23: the value and its bytes agree modulo `2^(8n)`, which decides a value in range and a sequence of `n` bytes. -/
theorem serializerRoundTrips : Obligations.SerializerRoundTrips := by
  intro n sg hn
  exact ⟨fun v hv => ⟨leSer_length n v, leDes_leSer hn hv, leNat_leSer n v⟩,
    fun bs h => ⟨leDes_rangeOK hn sg h, leSer_leDes sg h⟩⟩

/-! ## The forms -/

/-- Rules R82 and R132: no form is wider than 8 bytes. -/
theorem integerSetters_width : ∀ c ∈ integerSetters, 1 ≤ c.2.1 ∧ c.2.1 ≤ 8 := by decide

/-- Rules R82 and R133: no form is wider than 8 bytes. -/
theorem integerGetters_width : ∀ c ∈ integerGetters, c.2.1 ≤ 8 := by decide

/-- Every setter stands beside the getter of its own width and signedness. -/
theorem integerForms_agree : ∀ p ∈ List.zip integerSetters integerGetters, p.2.2 = p.1.2 := by decide

theorem exec_integerGetters : ∀ c ∈ integerGetters, ∀ k s, exec (c.1 k) s = getInteger c.2.1 c.2.2 k s := by
  simp only [integerGetters, List.forall_mem_cons]
  exact ⟨exec_getInteger1U, exec_getInteger2U, exec_getInteger4U, exec_getInteger8U, exec_getInteger1S, exec_getInteger2S,
    exec_getInteger4S, exec_getInteger8S, nofun⟩

/-- Rule R232: completing a command ends it, and writes no bank and nothing outside the banks. -/
theorem State.complete_onlyEnds (s : State) (c : Byte) (e : Ending) :
    Ends s (s.complete c e) c e ∧ SameBanks s (s.complete c e) ∧ SameOutsideBanks s (s.complete c e) :=
  ⟨Ends.complete .., SameBanks.complete s c e, SameOutsideBanks.complete ..⟩

/-! ## SETINTEGER -/

theorem setInteger_ok {n : Nat} {sg : Sign} {s : State} (j : BankIx) (h : RangeOK s.portA n sg) :
    setInteger n sg (bankField j) s = .next (storePayload j (leSer n s.portA) s) :=
  (setInteger_bank ..).trans (if_pos h)

theorem setInteger_range {n : Nat} {sg : Sign} {s : State} (j : BankIx) (h : ¬ RangeOK s.portA n sg) :
    setInteger n sg (bankField j) s = .next (s.raiseRange n sg s.portA) :=
  (setInteger_bank ..).trans (if_neg h)

/-- Settles O25: a value in range is stored as a payload of at most 8 bytes, any other ends the command. -/
theorem setIntegerStoresTheEncoding : Obligations.SetIntegerStoresTheEncoding := by
  intro c hc s j hwf
  rw [exec_integerSetters c hc]
  refine ⟨fun h => ⟨_, setInteger_ok j h, storePayload_stores hwf ?_⟩,
    fun h => ⟨_, setInteger_range j h, State.complete_onlyEnds ..⟩⟩
  obtain ⟨-, h8⟩ := integerSetters_width c hc
  rw [leSer_length]
  omega

/-! ## GETINTEGER -/

theorem getInteger_unset {n : Nat} (hn : n ≤ 128) (sg : Sign) {j : BankIx} {s : State} (h : (s.bank j).pset = false) :
    getInteger n sg (bankField j) s = .next (s.raise .nodata .none) := by
  rw [getInteger_bank hn, if_neg (by simp [h])]

theorem getInteger_short {n : Nat} (hn : n ≤ 128) (sg : Sign) {j : BankIx} {s : State} (h : (s.bank j).pset = true)
    (hl : (s.bank j).plen.toNat < n) :
    getInteger n sg (bankField j) s = .next (s.raise .decode (.short n (s.bank j).plen.toNat)) := by
  rw [getInteger_bank hn, if_pos h, if_pos hl]

/-- Rule R133: a payload that is long enough is decoded from its first `n` bytes. -/
theorem getInteger_ok {n : Nat} (hn : n ≤ 128) (sg : Sign) {j : BankIx} {s : State} {p : List Byte}
    (h : (s.bank j).abs.payload = some p) (hl : n ≤ p.length) :
    getInteger n sg (bankField j) s = .next (s.finish (.okInt (leDes n sg (p.take n)))) := by
  have hlen : n ≤ (s.bank j).plen.toNat := hl.trans_eq (Packet.abs_payload_length h).symm
  obtain ⟨hset, rfl⟩ := Packet.abs_payload_some.1 h
  rw [getInteger_bank hn, if_pos hset, if_neg (Nat.not_lt.2 hlen), Memory.readN_take _ 0 hlen]

/-- Settles O26: one equation of GETINTEGER for each case, and each of them only completes the command. -/
theorem getIntegerDecodesThePayload : Obligations.GetIntegerDecodesThePayload := by
  intro c hc s j
  have hn : c.2.1 ≤ 128 := (integerGetters_width c hc).trans (by decide)
  rw [exec_integerGetters c hc]
  exact ⟨fun h => ⟨_, getInteger_unset hn _ h, State.complete_onlyEnds ..⟩,
    fun h hl => ⟨_, getInteger_short hn _ h hl, State.complete_onlyEnds ..⟩,
    fun p h hl => ⟨_, getInteger_ok hn _ h hl, State.complete_onlyEnds ..⟩⟩

/-! ## What was stored is read back -/

/-- Rule R121: GETDATA of a payload of up to 128 bytes ends with its bytes. -/
theorem exec_getData_ok {s : State} {j : BankIx} {p : List Byte} (h : (s.bank j).abs.payload = some p)
    (hl : p.length ≤ 128) : exec (.getData (bankField j)) s = .next (s.finish (.okBytes p)) := by
  have hlen : (s.bank j).plen.toNat ≤ 128 := (Packet.abs_payload_length h).trans_le hl
  obtain ⟨hset, rfl⟩ := Packet.abs_payload_some.1 h
  rw [exec_getData, withBank_bankField, readPayload_set _ hset hlen]

/-- Settles O27: the payload that SETINTEGER leaves is the encoding, which GETINTEGER decodes and does not change. -/
theorem setThenGetIntegerReturnsTheValue : Obligations.SetThenGetIntegerReturnsTheValue := by
  rintro ⟨⟨setter, n, sg⟩, ⟨getter, _, _⟩⟩ hp s j hwf hv
  obtain ⟨hset, hget⟩ := List.of_mem_zip hp
  cases integerForms_agree _ hp
  obtain ⟨h1, h8⟩ : 1 ≤ n ∧ n ≤ 8 := integerSetters_width _ hset
  have hn : n ≤ 128 := h8.trans (by decide)
  obtain ⟨hfits, -⟩ := setIntegerStoresTheEncoding _ hset s j hwf
  obtain ⟨t, ht, -, hpay, -⟩ := hfits hv
  have hl : (leSer n s.portA).length = n := leSer_length ..
  have hu : getInteger n sg (bankField j) t = .next (t.finish (.okInt s.portA)) := by
    rw [getInteger_ok hn sg hpay hl.ge, List.take_of_length_le hl.le, leDes_leSer h1 hv]
  exact ⟨t, _, _, ht, (exec_integerGetters _ hget ..).trans hu, Ends.complete ..,
    exec_getData_ok (s := t.finish _) hpay (hl.trans_le hn), Ends.complete ..⟩

end Sys2Proof.Machine
end

section

/-!
PROOFS. The string commands SETSTRING and GETSTRING (O28 and O29).
-/

namespace Sys2Proof.Machine

/-! ## SETSTRING -/

/-- Settles O28: SETSTRING stores the text and its terminator, one byte more than the text, as a payload. -/
theorem setStringStoresTextAndZero : Obligations.SetStringStoresTextAndZero := by
  intro s j h
  have hexec : exec (.setString (bankField j)) s = .next (storePayload j (s.portData ++ [terminator]) s) :=
    (exec_setString ..).trans (withBank_bankField ..)
  have hlen : (s.portData ++ [terminator]).length = s.portData.length + 1 := List.length_append
  refine ⟨fun hl => ?_, fun hl => ⟨_, hexec, storePayload_faults s j (by omega)⟩⟩
  obtain ⟨hends, hpay, hframe⟩ := storePayload_stores h (bs := s.portData ++ [terminator]) (by omega)
  exact ⟨_, hexec, hends, (Packet.abs_payload_some.1 hpay).1, (Packet.abs_payload_length hpay).trans hlen, hpay, hframe⟩

/-! ## GETSTRING -/

/-- Rule R151: a payload that ends in the terminator is a text and the terminator. -/
theorem textOf_concat (x : List Byte) : textOf (x ++ [terminator]) = some x :=
  (if_pos List.getLast?_concat).trans (congrArg some List.dropLast_concat)

/-- Rule R151: any other payload, the empty one among them, is no text. -/
theorem textOf_unterminated {p : List Byte} (h : p.getLast? ≠ some terminator) : textOf p = none := if_neg h

/-- Rule R41: a read of a payload of up to 128 bytes is given its bytes. -/
theorem readPayload_of_abs {s : State} {j : BankIx} (use : List Byte → State) {p : List Byte}
    (h : (s.bank j).abs.payload = some p) (hl : p.length ≤ 128) : readPayload j s use = .next (use p) := by
  have hlen : (s.bank j).plen.toNat ≤ 128 := (Packet.abs_payload_length h).trans_le hl
  obtain ⟨hset, rfl⟩ := Packet.abs_payload_some.1 h
  exact readPayload_set use hset hlen

/-- Settles O29: what the payload read gives is a text or it is none, and either way GETSTRING only completes. -/
theorem getStringReturnsTheText : Obligations.GetStringReturnsTheText := by
  intro s j
  rw [exec_getString, withBank_bankField]
  refine ⟨readPayload_faults _, fun p hp hl hlast => ?_, fun x hp hl => ?_⟩
  · rw [readPayload_of_abs _ hp hl, textOf_unterminated hlast]
    exact ⟨_, rfl, State.complete_onlyEnds ..⟩
  · have hlen : (x ++ [terminator]).length ≤ 128 := by
      rw [List.length_append]
      exact Nat.succ_le_succ hl
    rw [readPayload_of_abs (p := x ++ [terminator]) _ hp hlen, textOf_concat]
    exact ⟨_, rfl, State.complete_onlyEnds ..⟩

end Sys2Proof.Machine
end

section

/-!
PROOFS. The checksum (O30), and a SEND that ends in the step that issues it (O32 to O34).
-/

namespace Sys2Proof.Machine

/-! ## The checksum -/

/-- Rule R160: the accumulator takes the bytes in order, so the last byte is added to the checksum of those before it. -/
theorem chk_eq_foldl (bs : List Byte) : chk bs = bs.foldl (· + ·) 0x00#8 := by
  induction bs using List.reverseRecOn with
  | nil => rfl
  | append_singleton bs b ih => rw [chk_concat, List.foldl_concat, ih]

/-- Settles O30: the accumulator, and the number that the checksum is. -/
theorem checksumIsTheByteSum : Obligations.ChecksumIsTheByteSum :=
  fun bs => ⟨chk_eq_foldl bs, chk_toNat bs⟩

/-! ## A SEND that hands its frame over -/

theorem KeepsPayload.sendHeader (d t : Bool) (s : State) : KeepsPayload (sendHeader d t s) := fun _ => ⟨rfl, rfl, rfl⟩

theorem KeepsPayload.putDst (f : Packet → Byte) : KeepsPayload fun p => p.putDst (f p) := fun _ => ⟨rfl, rfl, rfl⟩

/-- Rules R162 and R163: `u` is the state in which a SEND of bank `j`, issued in `s`, hands the frame with payload `p` over, its
header overwrites made and nothing of the frame out. -/
structure HandsOver (d t : Bool) (j : BankIx) (p : List Byte) (s u : State) : Prop where
  dst : (u.bank j).dst = headerAfter d s.portA (s.bank j).dst
  typ : (u.bank j).typ = headerAfter t s.portB (s.bank j).typ
  src : (u.bank j).src = s.laddr
  payload : SamePayload (s.bank j) (u.bank j)
  others : SameBanksBut j s u
  laddr : u.laddr = s.laddr
  results : u.results = s.results
  unsent : u.unsent = some (encodeFrame (u.bank j).dst s.laddr (u.bank j).typ p)
  tx : u.tx = s.tx
  txAns : u.txAns = s.txAns
  rx : u.rx = s.rx
  rxEngine : SameRxEngine s u
  ports : SamePorts s u

theorem exec_sendForms_handsOver {c : (BitVec 8 → Instr) × Bool × Bool} (hc : c ∈ sendForms) {s : State} {j : BankIx}
    {p : List Byte} (hw : s.txbuf.wf 134 = true) (hp : (s.bank j).abs.payload = some p) (hl : p.length ≤ 128)
    (hd : c.2.1 = true → 0 ≤ s.portA ∧ s.portA ≤ 255) (ht : c.2.2 = true → 0 ≤ s.portB ∧ s.portB ≤ 255) :
    ∃ u, exec (c.1 (bankField j)) s = txAnswer u ∧ HandsOver c.2.1 c.2.2 j p s u := by
  have hexec := (exec_sendForms c hc (bankField j) s).trans (sendForm_handsOver hp hl hd ht)
  let frame := encodeFrame (headerAfter c.2.1 s.portA (s.bank j).dst) s.laddr (headerAfter c.2.2 s.portB (s.bank j).typ) p
  have hlen : frame.length ≤ 134 := (encodeFrame_length ..).trans_le (Nat.add_le_add_right hl 6)
  let u := (s.updBank j (sendHeader c.2.1 c.2.2 s)).loadFrame frame
  have hbank : u.bank j = sendHeader c.2.1 c.2.2 s (s.bank j) := State.bank_updBank_self ..
  refine ⟨u, hexec, ?_⟩
  exact
    { dst := congrArg Packet.dst hbank
      typ := congrArg Packet.typ hbank
      src := congrArg Packet.src hbank
      payload := hbank ▸ (KeepsPayload.sendHeader c.2.1 c.2.2 s).samePayload _
      others := SameBanksBut.of_eq fun _ hk => State.bank_updBank_ne s _ hk
      laddr := State.updBank_laddr ..
      results := State.updBank_results ..
      unsent := by
        rw [hbank]
        exact State.unsent_loadFrame (by rw [State.updBank_txbuf]; exact hw) hlen
      tx := State.updBank_tx ..
      txAns := State.updBank_txAns ..
      rx := State.updBank_rx ..
      rxEngine := by simp [u, SameRxEngine]
      ports := by simp [u, SamePorts] }

/-- Rule R232: a SEND that has handed its frame over ends, some bytes gone out with the answer. -/
theorem HandsOver.ends {d t : Bool} {j : BankIx} {p : List Byte} {s u : State} (h : HandsOver d t j p s u) (w : List Byte)
    (rest : List TxAnswer) (c : Byte) (e : Ending) : Ends s ((u.txTaken w rest).complete c e) c e :=
  ⟨rfl, congrArg (· ++ [(⟨c, e⟩ : Completion)]) h.results, rfl, rfl⟩

/-- Settles O32: the transport takes the whole frame with `Done`, and the SEND ends. -/
theorem sendWritesTheFrame : Obligations.SendWritesTheFrame := by
  intro c hc s j p rest hw hp hl hd ht ha
  obtain ⟨u, hexec, h⟩ := exec_sendForms_handsOver hc hw hp hl hd ht
  exact ⟨_, hexec.trans (txAnswer_done (h.txAns.trans ha) h.unsent), h.ends .., h.dst, h.typ, h.src, h.payload, h.others,
    h.laddr, congrArg (· ++ _) h.tx, rfl, h.rx, h.rxEngine, h.ports⟩

/-- Settles O33: the transport takes the first `n` bytes of the frame with `IOERR`, and the SEND ends. -/
theorem failedSendWritesAPrefix : Obligations.FailedSendWritesAPrefix := by
  intro c hc s j p n rest hw hp hl hd ht ha
  obtain ⟨u, hexec, h⟩ := exec_sendForms_handsOver hc hw hp hl hd ht
  exact ⟨_, hexec.trans (txAnswer_ioerr (h.txAns.trans ha) h.unsent), h.ends .., h.dst, h.typ, h.src, h.payload, h.others,
    congrArg (· ++ _) h.tx, rfl⟩

/-! ## The faults before the frame is handed over -/

theorem not_rangeOK_byte {v : Int} (h : v < 0 ∨ 255 < v) : ¬ RangeOK v 1 .U := by
  rw [rangeOK_byte]
  omega

/-- Rule R162: the destination operand is tested first. -/
theorem sendForm_badDestination (t : Bool) {s : State} (j : BankIx) (h : s.portA < 0 ∨ 255 < s.portA) :
    sendForm true t (bankField j) s = .next (s.raiseRange 1 .U s.portA) := by
  rw [sendForm, withBank_bankField, overwriteHeader_range _ _ _ (not_rangeOK_byte h)]

/-- Rule R162: the type operand is tested when the destination has been overwritten. -/
theorem sendForm_badType {d : Bool} {s : State} (j : BankIx) (hd : d = true → 0 ≤ s.portA ∧ s.portA ≤ 255)
    (h : s.portB < 0 ∨ 255 < s.portB) : sendForm d true (bankField j) s =
      .next ((s.updBank j fun p => p.putDst (headerAfter d s.portA p.dst)).raiseRange 1 .U s.portB) := by
  rw [sendForm, withBank_bankField, overwriteHeader_dst hd]
  dsimp only
  rw [overwriteHeader_range _ _ _ (not_rangeOK_byte h)]

/-- Rule R162: the payload is tested when the whole header has been overwritten. -/
theorem sendForm_unset {d t : Bool} {s : State} {j : BankIx} (hp : (s.bank j).pset = false)
    (hd : d = true → 0 ≤ s.portA ∧ s.portA ≤ 255) (ht : t = true → 0 ≤ s.portB ∧ s.portB ≤ 255) :
    sendForm d t (bankField j) s = .next ((s.updBank j (sendHeader d t s)).raise .nodata .none) := by
  rw [sendForm, withBank_bankField, overwriteHeader_dst hd]
  dsimp only
  rw [overwriteHeader_typ ht, State.updBank_updBank]
  dsimp only
  rw [sendStamped_unset (by rw [State.bank_updBank_self]; exact hp), State.updBank_updBank, State.updBank_laddr]
  rfl

/-- Rule R231: a command that ends after header overwrites `g` of bank `j` has changed nothing but that header. -/
theorem State.updBank_complete_frame (s : State) (j : BankIx) {g : Packet → Packet} (hg : KeepsPayload g) (c : Byte)
    (e : Ending) : SamePayload (s.bank j) (((s.updBank j g).complete c e).bank j) ∧
      SameBanksBut j s ((s.updBank j g).complete c e) ∧ SameOutsideBanks s ((s.updBank j g).complete c e) := by
  have hbank : ((s.updBank j g).complete c e).bank j = g (s.bank j) := State.bank_updBank_self ..
  rw [hbank]
  exact ⟨hg.samePayload _, SameBanksBut.updBank_complete s j g c e, SameOutsideBanks.updBank_complete ..⟩

/-- Settles O34: one equation of SEND for each fault, with the header overwrites made before it. -/
theorem sendFaultsInOrder : Obligations.SendFaultsInOrder := by
  intro c hc s j
  rw [exec_sendForms c hc]
  obtain ⟨_, d, t⟩ := c
  refine ⟨fun hgiven ha => ?_, fun hd hgiven hb => ?_, fun hd ht hp => ?_⟩
  · cases hgiven
    exact ⟨_, sendForm_badDestination t j ha, State.complete_onlyEnds ..⟩
  · cases hgiven
    let g : Packet → Packet := fun p => p.putDst (headerAfter d s.portA p.dst)
    have hbank : (s.updBank j g).bank j = g (s.bank j) := State.bank_updBank_self ..
    exact ⟨_, sendForm_badType j hd hb, Ends.updBank_complete .., congrArg Packet.dst hbank, (congrArg Packet.typ hbank :),
      (congrArg Packet.src hbank :), s.updBank_complete_frame j (.putDst _) _ _⟩
  · have hbank : (s.updBank j (sendHeader d t s)).bank j = sendHeader d t s (s.bank j) := State.bank_updBank_self ..
    exact ⟨_, sendForm_unset hp hd ht, Ends.updBank_complete .., congrArg Packet.dst hbank, congrArg Packet.typ hbank,
      congrArg Packet.src hbank, s.updBank_complete_frame j (.sendHeader d t s) _ _⟩

end Sys2Proof.Machine
end

section

/-!
PROOFS. The transitions of the receive machine (O37 to O46).
-/

namespace Sys2Proof.Machine

/-- Settles O37: a command that names bank `j` acts on bank `j`. -/
theorem receiveStartsInSeekSyn : Obligations.ReceiveStartsInSeekSyn :=
  fun s j => (exec_receive ..).trans (withBank_bankField j s _)

/-! ## The transitions that go on -/

/-- A step takes a byte of the receive stream. -/
theorem step_byte {s : State} {b : Byte} {rest : List RxEvent} (hn : NoReset s) (ht : s.txs = .idle)
    (hr : s.rxs ≠ .idle) (hx : s.rx = .byte b :: rest) : step s = .next (rxByte b (s.tick.rxTaken rest)) :=
  step_receive hn ht hr hx

/-- Settles O39: a LEN byte below 4 is a false match, any other begins the body. -/
theorem readLenTransitions : Obligations.ReadLenTransitions := by
  intro s len rest hn ht hr hx
  have hstep := step_byte hn ht (by simp [hr]) hx
  exact ⟨fun hl => hstep.trans (congrArg _ (rxByte_falseSyn hr hl)),
    fun hl => hstep.trans (congrArg _ (rxByte_len hr hl))⟩

/-- Settles O40: the byte is taken by `bodyByte`, whose effect on each register is known. -/
theorem bodyBytesAreSummedAndStaged : Obligations.BodyBytesAreSummedAndStaged := by
  intro s b rest hn ht hr hx hw hc
  let u := s.tick.rxTaken rest
  have hstep : step s = .next (bodyByte b u) :=
    (step_byte hn ht (by simp [hr]) hx).trans (congrArg _ (rxByte_body b hr hc))
  have hcnt : (bodyByte b u).rxcnt.toNat = s.rxcnt.toNat + 1 := by
    have hlt := s.rxlen.isLt
    rw [bodyByte_rxcnt, BitVec.toNat_add]
    exact Nat.mod_eq_of_lt (show s.rxcnt.toNat + 1 < 256 by omega)
  exact ⟨_, hstep, rfl, rfl, rfl, hcnt, BitVec.toNat_add .., fun h => bodyByte_read_self b (s := u) hw (Nat.lt_succ_of_le h),
    fun i hi => bodyByte_read_ne b (s := u) hi, rfl, SameBanks.of_eq fun _ => rfl, rfl, rfl, rfl, rfl, rfl, rfl, rfl, rfl,
    SameBytes.refl _⟩

/-- Settles O41: the mismatch is tested before anything else. -/
theorem checksumMismatchResynchronizes : Obligations.ChecksumMismatchResynchronizes := by
  intro s c rest hn ht hr hx hc hs
  exact (step_byte hn ht (by simp [hr]) hx).trans (congrArg _ (rxByte_mismatch hr hc hs))

/-! ## The transitions that end the command -/

/-- A step whose answer ends the RECEIVE without a packet leaves the banks alone. -/
theorem step_noPacket {s : State} {e : RxEvent} {rest : List RxEvent} {c : Byte} (hn : NoReset s) (ht : s.txs = .idle)
    (hr : s.rxs ≠ .idle) (hx : s.rx = e :: rest)
    (he : rxEvent e (s.tick.rxTaken rest) = (s.tick.rxTaken rest).noPacket c) :
    ∃ t, step s = .next t ∧ Ends s t c .noPacket ∧ SameBanks s t ∧ t.laddr = s.laddr ∧ t.rx = rest :=
  ⟨_, (step_receive hn ht hr hx).trans (congrArg _ he), Ends.complete (s.tick.rxTaken rest) .., SameBanks.of_eq fun _ => rfl,
    rfl, rfl⟩

/-- Rules R184, R188 and R193: the code of an end of the stream tells where the scan was. -/
def eofCode : RxState → Byte
  | .idle | .seekSyn => codeEofSeek
  | .readLen => codeEofLen
  | .readBody => codeEofBody

theorem rxEvent_eof_code {s : State} (h : s.rxs ≠ .idle) : rxEvent .eof s = s.noPacket (eofCode s.rxs) := by
  cases hr : s.rxs with
  | idle => exact absurd hr h
  | seekSyn | readLen | readBody => simp [rxEvent, rxEof, eofCode, hr]

theorem step_eof {s : State} {r : RxState} {rest : List RxEvent} (hn : NoReset s) (ht : s.txs = .idle) (hr : s.rxs = r)
    (hi : r ≠ .idle) (hx : s.rx = .eof :: rest) :
    ∃ t, step s = .next t ∧ Ends s t (eofCode r) .noPacket ∧ SameBanks s t ∧ t.rx = rest := by
  subst hr
  obtain ⟨t, hstep, hends, hbanks, -, hrx⟩ := step_noPacket hn ht hi hx (rxEvent_eof_code (s := s.tick.rxTaken rest) hi)
  exact ⟨t, hstep, hends, hbanks, hrx⟩

/-- Settles O38: one equation for noise and one for SYN, and the end of the stream. -/
theorem seekSynTransitions : Obligations.SeekSynTransitions := by
  intro s e rest hn ht hr hx
  have hbusy : s.rxs ≠ .idle := by simp [hr]
  refine ⟨?_, ?_, ?_⟩
  · rintro b rfl hb
    exact (step_byte hn ht hbusy hx).trans (congrArg _ (rxByte_noise hr hb))
  · rintro rfl
    exact (step_byte hn ht hbusy hx).trans (congrArg _ (rxByte_syn hr))
  · rintro rfl
    exact step_eof hn ht hr nofun hx

/-- Settles O44: the code is that of the state in which the stream ends. -/
theorem endOfStreamInsideAFrame : Obligations.EndOfStreamInsideAFrame := by
  intro s rest hn ht hx
  exact ⟨fun hr => step_eof hn ht hr nofun hx, fun hr => step_eof hn ht hr nofun hx⟩

/-- Settles O45: the answer to IOERR does not depend on the state. -/
theorem receiveTransportFailureIsNoPacket : Obligations.ReceiveTransportFailureIsNoPacket := by
  intro s rest hn ht hr hx
  exact step_noPacket hn ht hr hx (rxEvent_ioerr (s := s.tick.rxTaken rest) hr)

/-- Settles O42: the registers of the bank are those that `materialize` writes. -/
theorem verifiedFrameIsMaterialised : Obligations.VerifiedFrameIsMaterialised := by
  intro s rest hn ht hr hx hc h4 h132 hw
  let u := s.tick.rxTaken rest
  let g : Packet → Packet := fun p => p.materialize s.rxbuf (payloadLength s.rxlen)
  have hstep : step s = .next ((u.updBank s.rxk g).finish .ok) :=
    (step_byte hn ht (by simp [hr]) hx).trans (congrArg _ (rxByte_verified (s := u) hr hc h132))
  have hbank : ((u.updBank s.rxk g).finish .ok).bank s.rxk = g (s.bank s.rxk) := State.bank_updBank_self ..
  have hl : payloadLength s.rxlen ≤ 128 := Nat.sub_le_of_le_add h132
  have hpay : (g (s.bank s.rxk)).abs.payload = some (s.rxbuf.readN 3 (payloadLength s.rxlen)) :=
    congrArg AbsPacket.payload (Packet.materialize_abs hw s.rxbuf hl)
  refine ⟨_, hstep, Ends.updBank_complete u .., ?_⟩
  rw [hbank]
  refine ⟨rfl, rfl, rfl, rfl, ?_, fun i hi => ?_, SameBanksBut.updBank_complete u s.rxk g _ _, State.updBank_laddr ..,
    State.updBank_rx .., State.updBank_tx ..⟩
  · rw [Packet.abs_payload_length hpay, Memory.readN_length]
    rfl
  · rw [Packet.pay_read_of_abs hpay (by rwa [Memory.readN_length]), Memory.readN_getElem]

/-- Settles O43: a frame that is too long for a bank ends the command and does nothing else. -/
theorem oversizeFrameFaults : Obligations.OversizeFrameFaults := by
  intro s rest hn ht hr hx hc hl
  let u := s.tick.rxTaken rest
  have hstep : step s = .next u.raiseOverflow :=
    (step_byte hn ht (by simp [hr]) hx).trans (congrArg _ (rxByte_oversize (s := u) hr hc hl))
  exact ⟨_, hstep, Ends.complete u .., SameBanks.of_eq fun _ => rfl, rfl, rfl⟩

/-- Settles O46: of all that an answer can do, only the delivery of a verified frame writes a bank. -/
theorem banksChangeOnlyOnSuccess : Obligations.BanksChangeOnlyOnSuccess := by
  intro s t k hn ht hr h hne
  cases step_effect h with
  | resets hreset => exact absurd hn hreset
  | waits _ _ => exact absurd rfl hne
  | transmits _ he _ => exact nomatch ht.symm.trans he
  | refuses _ hb _ _ | runs _ hb _ _ _ _ => exact absurd hb.1 hr
  | receives _ _ _ rest he =>
    cases he with
    | scans _ _ | begins _ _ | takes _ _ _ | ends _ _ _ => exact absurd rfl hne
    | delivers hbody _ =>
      refine ⟨?_, hbody, Ends.updBank_complete (s.tick.rxTaken rest) ..⟩
      by_contra hk
      exact hne (State.bank_updBank_ne (s.tick.rxTaken rest) _ hk)

end Sys2Proof.Machine
end

section

/-!
PROOFS. The receive machine on a run of bytes: it follows the body of a candidate (O48) and does what `Recv` says (O51).
-/

namespace Sys2Proof.Machine

/-! ## A RECEIVE that goes on -/

/-- Rules R182 to R189: the RECEIVE in progress in `s` is still in progress in `t`: only the engine's own registers
differ. -/
structure StaysReceiving (s t : State) : Prop where
  banks : ∀ k, t.bank k = s.bank k
  results : t.results = s.results
  rxk : t.rxk = s.rxk
  laddr : t.laddr = s.laddr
  cmds : t.cmds = s.cmds
  tx : t.tx = s.tx
  txs : t.txs = s.txs
  resetLine : t.resetLine = s.resetLine
  rxbuf : s.rxbuf.wf 131 = true → t.rxbuf.wf 131 = true

theorem StaysReceiving.refl (s : State) : StaysReceiving s s := ⟨fun _ => rfl, rfl, rfl, rfl, rfl, rfl, rfl, rfl, id⟩

theorem StaysReceiving.trans {s t u : State} (h : StaysReceiving s t) (h' : StaysReceiving t u) : StaysReceiving s u where
  banks k := (h'.banks k).trans (h.banks k)
  results := h'.results.trans h.results
  rxk := h'.rxk.trans h.rxk
  laddr := h'.laddr.trans h.laddr
  cmds := h'.cmds.trans h.cmds
  tx := h'.tx.trans h.tx
  txs := h'.txs.trans h.txs
  resetLine := h'.resetLine.trans h.resetLine
  rxbuf hw := h'.rxbuf (h.rxbuf hw)

/-- An answer that does not end the RECEIVE. -/
theorem RxEffect.staysReceiving {s t : State} (h : RxEffect s t) (hr : t.rxs ≠ .idle) : StaysReceiving s t := by
  cases h with
  | scans _ _ | begins _ _ => exact ⟨fun _ => rfl, rfl, rfl, rfl, rfl, rfl, rfl, rfl, id⟩
  | takes b _ _ => exact ⟨fun _ => rfl, rfl, rfl, rfl, rfl, rfl, rfl, rfl, bodyByte_keeps_wf b⟩
  | delivers _ _ | ends _ _ _ => exact absurd rfl hr

/-! ## Delivering bytes to an engine that stays busy -/

/-- An engine that is busy after some bytes was busy before each of them. -/
theorem busy_of_deliver {bs : List Byte} {s : State} (h : (deliver bs s).rxs ≠ .idle) : s.rxs ≠ .idle := by
  intro hi
  rw [deliver_idle bs hi] at h
  exact h hi

theorem deliver_staysReceiving {bs : List Byte} {s : State} (h : (deliver bs s).rxs ≠ .idle) :
    StaysReceiving s (deliver bs s) := by
  induction bs generalizing s with
  | nil => exact .refl s
  | cons b bs ih =>
    have hr := busy_of_deliver h
    rw [deliver_cons b bs hr] at h ⊢
    exact ((rxByte_effect b hr).staysReceiving (busy_of_deliver h)).trans (ih h)

theorem checksumByte_rxTaken (c : Byte) (s : State) (rest : List RxEvent) :
    checksumByte c (s.rxTaken rest) = (checksumByte c s).rxTaken rest := by
  by_cases hc : c = s.rxsum
  · subst hc
    by_cases hl : s.rxlen.toNat ≤ 132
    · rw [checksumByte_verified hl]
      exact (checksumByte_verified (s := s.rxTaken rest) hl).trans
        (congrArg (State.complete · codeOk .ok) (State.rxTaken_setBank ..).symm)
    · rw [checksumByte_oversize hl]
      exact checksumByte_oversize (s := s.rxTaken rest) hl
  · rw [checksumByte_mismatch hc]
    exact checksumByte_mismatch (s := s.rxTaken rest) hc

/-- No transition reads the stream. -/
theorem rxByte_rxTaken (b : Byte) (s : State) (rest : List RxEvent) :
    rxByte b (s.rxTaken rest) = (rxByte b s).rxTaken rest := by
  unfold rxByte
  rw [State.rxTaken_rxs, State.rxTaken_rxcnt, State.rxTaken_rxlen]
  split
  · rfl
  · unfold seekByte
    split <;> rfl
  · unfold lenByteTaken
    split <;> rfl
  · split
    · rfl
    · exact checksumByte_rxTaken b s rest

theorem deliver_rxTaken {bs : List Byte} {s : State} (h : (deliver bs s).rxs ≠ .idle) (rest : List RxEvent) :
    deliver bs (s.rxTaken rest) = (deliver bs s).rxTaken rest := by
  induction bs generalizing s with
  | nil => rfl
  | cons b bs ih =>
    have hr := busy_of_deliver h
    rw [deliver_cons b bs hr] at h
    rw [deliver_cons b bs hr, deliver_cons b bs (s := s.rxTaken rest) hr, rxByte_rxTaken, ih h]

theorem deliver_concat {bs : List Byte} {s : State} (h : (deliver bs s).rxs ≠ .idle) (c : Byte) :
    deliver (bs ++ [c]) s = rxByte c (deliver bs s) := by
  induction bs generalizing s with
  | nil => exact deliver_cons c [] h
  | cons b bs ih =>
    have hr := busy_of_deliver h
    rw [deliver_cons b bs hr] at h ⊢
    rw [List.cons_append, deliver_cons b _ hr, ih h]

/-- Rule R270: the machine takes the bytes at the front of the stream one a step. -/
theorem run_deliver {bs : List Byte} {s : State} {rest : List RxEvent} (hline : s.resetLine = []) (ht : s.txs = .idle)
    (hx : s.rx = bs.map .byte ++ rest) (h : (deliver bs s).rxs ≠ .idle) :
    core.run bs.length s = .next ((deliver bs s).rxTaken rest) := by
  induction bs generalizing s with
  | nil =>
    obtain rfl : s.rx = rest := hx
    rfl
  | cons b bs ih =>
    have hr := busy_of_deliver h
    let rest' : List RxEvent := bs.map .byte ++ rest
    let u := (rxByte b s).rxTaken rest'
    have hstep : step s = .next u := by
      rw [step_byte (noReset_of_nil hline) ht hr (rest := rest') hx, tick_of_nil hline, rxByte_rxTaken]
    rw [deliver_cons b bs hr] at h ⊢
    have hnext : deliver bs u = (deliver bs (rxByte b s)).rxTaken rest' := deliver_rxTaken h rest'
    have hrest := ih (s := u) ((rxByte_resetLine b s).trans hline) (rxByte_txs b ht) rfl (by rw [hnext]; exact h)
    rw [List.length_cons, run_succ _ hstep, hrest, hnext]
    rfl

/-! ## The bytes of a candidate -/

theorem deliver_incomplete {s : State} {len : Byte} {bs : List Byte} (h : s.rxs = .seekSyn) (h4 : 4 ≤ len.toNat)
    (hw : s.rxbuf.wf 131 = true) (hl : bs.length < len.toNat) :
    ∃ buf : Memory, (∀ i (hi : i < bs.length), i < 131 → buf.read i = bs[i]) ∧
      deliver (Config.SYN :: len :: bs) s = s.staged len bs buf := by
  obtain ⟨buf, hbuf, hdel⟩ := deliver_staged h h4 hw hl
  exact ⟨buf, hbuf, by simpa using hdel []⟩

/-- Settles O48: the bytes that have arrived are staged, and the engine waits for the rest. -/
theorem stagingFollowsTheBody : Obligations.StagingFollowsTheBody := by
  intro s len body h h4 hl hw
  obtain ⟨buf, hbuf, hdel⟩ := deliver_incomplete h h4 hw hl
  refine ⟨s.staged len body buf, (exec_frame ..).trans (congrArg _ hdel), rfl, rfl, s.staged_rxcnt buf hl, rfl,
    fun i b hb h131 => ?_, SameBanks.of_eq fun _ => rfl, rfl, rfl, rfl, rfl, rfl, rfl⟩
  obtain ⟨hi, rfl⟩ := List.getElem?_eq_some_iff.1 hb
  exact hbuf i hi h131

/-- A RECEIVE seeks SYN, no reset is coming, and its byte spaces are in canonical form. -/
structure SeeksSyn (s : State) : Prop where
  resetLine : s.resetLine = []
  txs : s.txs = .idle
  rxs : s.rxs = .seekSyn
  rxbuf : s.rxbuf.wf 131 = true
  pay : (s.bank s.rxk).pay.wf 128 = true

/-- Rule R270: the machine runs a complete candidate at the front of the stream. -/
theorem SeeksSyn.run_frame {s t : State} (h : SeeksSyn s) {len : Byte} {body : List Byte} {rest : List RxEvent}
    (h4 : 4 ≤ len.toNat) (hb : body.length = len.toNat) (hx : s.rx = (Config.SYN :: len :: body).map .byte ++ rest)
    (he : exec (.frame (len :: body)) (s.rxTaken rest) = .next t) : core.run (body.length + 2) s = .next t := by
  obtain rfl | ⟨bs, c, rfl⟩ := body.eq_nil_or_concat'
  · rw [← hb] at h4
    cases h4
  rw [List.length_append, List.length_singleton] at hb
  obtain ⟨buf, -, hdel⟩ := deliver_incomplete h.rxs h4 h.rxbuf (bs := bs) (by omega)
  have hbusy : (deliver (Config.SYN :: len :: bs) s).rxs ≠ .idle := hdel ▸ nofun
  have hgo := deliver_staysReceiving hbusy
  let u := (deliver (Config.SYN :: len :: bs) s).rxTaken (.byte c :: rest)
  have hrun : core.run (bs.length + 2) s = .next u :=
    run_deliver (bs := Config.SYN :: len :: bs) h.resetLine h.txs (by rw [hx]; simp) hbusy
  have hline : u.resetLine = [] := hgo.resetLine.trans h.resetLine
  have hstep : step u = .next t := by
    rw [step_byte (s := u) (noReset_of_nil hline) (hgo.txs.trans h.txs) hbusy rfl, tick_of_nil hline, ← he, exec_frame]
    have hdel' := deliver_rxTaken hbusy rest
    exact congrArg _ ((congrArg (rxByte c) hdel'.symm).trans (deliver_concat (hdel' ▸ hbusy) c).symm)
  rw [List.length_append, List.length_singleton, Nat.add_right_comm, run_add _ 1 hrun, run_succ 0 hstep, run_zero]

/-! ## The recursion of Recv -/

/-- Rule R194: the ways in which an input can begin, with the inputs that `Recv` goes on with. -/
theorem recv_induction {P : List Byte → Prop} (nil : P []) (noise : ∀ b r, b ≠ Config.SYN → P r → P (b :: r))
    (synEnd : P [Config.SYN]) (falseSyn : ∀ len r, len.toNat < 4 → P r → P (Config.SYN :: len :: r))
    (short : ∀ len r, 4 ≤ len.toNat → r.length < len.toNat → P (Config.SYN :: len :: r))
    (candidate : ∀ len body r, 4 ≤ len.toNat → body.length = len.toNat → P r → P (Config.SYN :: len :: (body ++ r)))
    (input : List Byte) : P input := by
  induction hn : input.length using Nat.strong_induction_on generalizing input with
  | h n ih =>
    subst hn
    match input with
    | [] => exact nil
    | b :: r =>
      by_cases hb : b = Config.SYN
      · subst hb
        match r with
        | [] => exact synEnd
        | len :: r =>
          simp only [List.length_cons] at ih
          by_cases h4 : len.toNat < 4
          · exact falseSyn len r h4 (ih _ (by omega) r rfl)
          · by_cases hr : r.length < len.toNat
            · exact short len r (Nat.le_of_not_lt h4) hr
            · rw [← List.take_append_drop len.toNat r]
              refine candidate len _ _ (Nat.le_of_not_lt h4) (List.length_take_of_le (Nat.le_of_not_lt hr)) ?_
              exact ih _ (by rw [List.length_drop]; omega) _ rfl
      · exact noise b r hb (ih _ (Nat.lt_succ_self _) r rfl)

/-- Rule R194: the packet of a verified candidate that a bank can hold. -/
theorem recvVerified_ok {len : Byte} {body : List Byte} (hl : len.toNat ≤ 132) (h3 : 3 ≤ body.length) :
    recvVerified len body = .ok (body.getD 0 0x00#8) (body.getD 1 0x00#8) (body.getD 2 0x00#8)
      ((body.drop 3).take (len.toNat - 4)) := by
  match body, h3 with
  | _ :: _ :: _ :: _, _ => exact if_neg (Nat.not_lt.2 hl)
  | [], h3 | [_], h3 | [_, _], h3 => exact absurd h3 (by simp)

theorem recvVerified_overflow {len : Byte} (body : List Byte) (hl : 132 < len.toNat) :
    recvVerified len body = .overflow := if_pos hl

/-! ## The receive machine and Recv -/

/-- Rule R196: `t` is reached from `s` in as many steps as answers of the receive transport were taken. -/
structure ReceiveRun (n : Nat) (s t : State) : Prop where
  run : core.run n s = .next t
  answers : n + t.rx.length = s.rx.length
  others : SameBanksBut s.rxk s t
  laddr : t.laddr = s.laddr
  tx : t.tx = s.tx
  cmds : t.cmds = s.cmds

/-- Rules R194 to R196: the RECEIVE of `s` has ended in `t` with an outcome of `Recv`, the terminal event `e` and the answers
`tail` after it. -/
inductive EndsAs (s t : State) (e : RxEvent) (tail : List RxEvent) : RecvOutcome × List Byte → Prop
  | noPacket (unread : List Byte) (c : Byte) (hrx : t.rx = tail) (hb : SameBanks s t) (he : Ends s t c .noPacket)
      (hc : c = codeIoerr ↔ e = .ioerr) : EndsAs s t e tail (.noPacket, unread)
  | overflow (unread : List Byte) (hrx : t.rx = unread.map .byte ++ e :: tail) (hb : SameBanks s t)
      (he : EndsFault s t .overflow (.limit 128)) : EndsAs s t e tail (.overflow, unread)
  | ok (unread : List Byte) (dst src typ : Byte) (p : List Byte) (hrx : t.rx = unread.map .byte ++ e :: tail)
      (he : EndsOk s t .ok) (hp : (t.bank s.rxk).abs = ⟨src, dst, typ, some p⟩) :
      EndsAs s t e tail (.ok dst src typ p, unread)

/-- The RECEIVE of `s` ends with this outcome of `Recv`. -/
def Receives (s : State) (e : RxEvent) (tail : List RxEvent) (o : RecvOutcome × List Byte) : Prop :=
  ∃ n t, ReceiveRun n s t ∧ EndsAs s t e tail o

/-- An outcome does not depend on the state in which the RECEIVE was seen in progress. -/
theorem StaysReceiving.endsAs {s s' t : State} (h : StaysReceiving s s') {e : RxEvent} {tail : List RxEvent}
    {o : RecvOutcome × List Byte} (ho : EndsAs s' t e tail o) : EndsAs s t e tail o := by
  have hbanks : SameBanks s' t → SameBanks s t := fun hb k => h.banks k ▸ hb k
  have hends : ∀ c x, Ends s' t c x → Ends s t c x := fun c x he => by
    unfold Ends at he ⊢
    rwa [h.results] at he
  cases ho with
  | noPacket unread c hrx hb he hc => exact .noPacket unread c hrx (hbanks hb) (hends _ _ he) hc
  | overflow unread hrx hb he => exact .overflow unread hrx (hbanks hb) (hends _ _ he)
  | ok unread dst src typ p hrx he hp => exact .ok unread dst src typ p hrx (hends _ _ he) (h.rxk ▸ hp)

/-- A RECEIVE that is in progress after some bytes of the stream ends as it ends from there. -/
theorem SeeksSyn.receives_of_deliver {s : State} (h : SeeksSyn s) {bs : List Byte} {rest : List RxEvent}
    (hx : s.rx = bs.map .byte ++ rest) (hbusy : (deliver bs s).rxs ≠ .idle) {e : RxEvent} {tail : List RxEvent}
    {o : RecvOutcome × List Byte} (ho : Receives ((deliver bs s).rxTaken rest) e tail o) : Receives s e tail o := by
  have hgo : StaysReceiving s ((deliver bs s).rxTaken rest) :=
    (deliver_staysReceiving hbusy).trans ⟨fun _ => rfl, rfl, rfl, rfl, rfl, rfl, rfl, rfl, id⟩
  obtain ⟨n, t, hrun, hends⟩ := ho
  refine ⟨bs.length + n, t, ?_, hgo.endsAs hends⟩
  exact
    { run := (run_add _ n (run_deliver h.resetLine h.txs hx hbusy)).trans hrun.run
      answers := by
        rw [Nat.add_assoc, hrun.answers, hx, List.length_append, List.length_map]
        rfl
      others := fun k hk => hgo.banks k ▸ hrun.others k (hgo.rxk ▸ hk)
      laddr := hrun.laddr.trans hgo.laddr
      tx := hrun.tx.trans hgo.tx
      cmds := hrun.cmds.trans hgo.cmds }

/-- Rules R184, R185, R188 and R193: a terminal event of the stream ends a RECEIVE without a packet. -/
theorem rxEvent_terminal {s : State} (h : s.rxs ≠ .idle) {e : RxEvent} (he : e = .eof ∨ e = .ioerr) :
    ∃ c, rxEvent e s = s.noPacket c ∧ (c = codeIoerr ↔ e = .ioerr) := by
  rcases he with rfl | rfl
  · obtain ⟨c, hc, hmem⟩ := rxEvent_eof h
    refine ⟨c, hc, fun hio => ?_, nofun⟩
    subst hio
    exact absurd hmem (by decide)
  · exact ⟨_, rxEvent_ioerr h, fun _ => rfl, fun _ => rfl⟩

theorem receives_noPacket {s : State} (hline : s.resetLine = []) (ht : s.txs = .idle) (hr : s.rxs ≠ .idle) {e : RxEvent}
    {tail : List RxEvent} (hx : s.rx = e :: tail) (he : e = .eof ∨ e = .ioerr) (unread : List Byte) :
    Receives s e tail (.noPacket, unread) := by
  let u := s.tick.rxTaken tail
  obtain ⟨c, hc, hcode⟩ := rxEvent_terminal (s := u) hr he
  have hstep : step s = .next (u.noPacket c) :=
    (step_receive (noReset_of_nil hline) ht hr hx).trans (congrArg _ hc)
  have hbanks : SameBanks s (u.noPacket c) := SameBanks.of_eq fun _ => rfl
  exact ⟨1, _, ⟨run_succ 0 hstep, hx ▸ Nat.add_comm .., fun k _ => hbanks k, rfl, rfl, rfl⟩,
    .noPacket unread c rfl hbanks (Ends.complete u ..) hcode⟩

/-- The stream ends where the RECEIVE is still in progress. -/
theorem SeeksSyn.receives_incomplete {s : State} (h : SeeksSyn s) {bs : List Byte} {e : RxEvent} {tail : List RxEvent}
    (hx : s.rx = bs.map .byte ++ e :: tail) (he : e = .eof ∨ e = .ioerr) (hbusy : (deliver bs s).rxs ≠ .idle)
    (unread : List Byte) : Receives s e tail (.noPacket, unread) := by
  have hgo := deliver_staysReceiving hbusy
  exact h.receives_of_deliver hx hbusy
    (receives_noPacket (s := (deliver bs s).rxTaken (e :: tail)) (hgo.resetLine.trans h.resetLine) (hgo.txs.trans h.txs)
      hbusy rfl he unread)

theorem SeeksSyn.after {s : State} (h : SeeksSyn s) {bs : List Byte} (hr : (deliver bs s).rxs = .seekSyn)
    (rest : List RxEvent) : SeeksSyn ((deliver bs s).rxTaken rest) := by
  have hgo := deliver_staysReceiving (bs := bs) (s := s) (by simp [hr])
  exact
    { resetLine := hgo.resetLine.trans h.resetLine
      txs := hgo.txs.trans h.txs
      rxs := hr
      rxbuf := hgo.rxbuf h.rxbuf
      pay := by
        rw [State.bank_rxTaken, State.rxTaken_rxk, hgo.banks, hgo.rxk]
        exact h.pay }

/-- Rules R191 and R192: a complete candidate with the right checksum ends the RECEIVE with the outcome that `Recv`
gives it. -/
theorem SeeksSyn.receives_verified {s : State} (h : SeeksSyn s) {len : Byte} {body r : List Byte} {e : RxEvent}
    {tail : List RxEvent} (h4 : 4 ≤ len.toNat) (hb : body.length = len.toNat)
    (hx : s.rx = (Config.SYN :: len :: body).map .byte ++ (r.map .byte ++ e :: tail))
    (hc : chk (body.take (len.toNat - 1)) = body.getD (len.toNat - 1) 0x00#8) :
    Receives s e tail (recvVerified len body, r) := by
  obtain ⟨t, hexec, hladdr, ⟨hrx, htx, -⟩, ⟨hcmds, -⟩, hothers, -, -, hgood, hlong⟩ :=
    completeFrameIsJudged (s.rxTaken (r.map .byte ++ e :: tail)) len body h.rxs h4 hb h.rxbuf h.pay
  refine ⟨_, t, ⟨h.run_frame h4 hb hx hexec, ?_, hothers, hladdr, htx, hcmds⟩, ?_⟩
  · rw [hrx, hx]
    simp only [State.rxTaken_rx, List.length_append, List.length_map, List.length_cons]
  · by_cases hl : len.toNat ≤ 132
    · obtain ⟨hends, habs⟩ := hgood hc hl
      rw [recvVerified_ok hl (by omega)]
      exact .ok r _ _ _ _ hrx hends habs
    · obtain ⟨hends, hbanks⟩ := hlong hc (Nat.lt_of_not_le hl)
      rw [recvVerified_overflow body (Nat.lt_of_not_le hl)]
      exact .overflow r hrx hbanks hends

/-- Rule R190: a complete candidate with a wrong checksum leaves the engine seeking SYN. -/
theorem deliver_mismatch {s : State} (h : s.rxs = .seekSyn) (hw : s.rxbuf.wf 131 = true) {len : Byte} {body : List Byte}
    (h4 : 4 ≤ len.toNat) (hb : body.length = len.toNat) (hp : (s.bank s.rxk).pay.wf 128 = true)
    (hc : chk (body.take (len.toNat - 1)) ≠ body.getD (len.toNat - 1) 0x00#8) :
    (deliver (Config.SYN :: len :: body) s).rxs = .seekSyn := by
  obtain ⟨t, hexec, -, -, -, -, -, hbad, -⟩ := completeFrameIsJudged s len body h h4 hb hw hp
  cases (exec_frame ..).symm.trans hexec
  exact (hbad hc).1

/-- Rules R194 to R196: from `SEEK_SYN`, the machine ends the RECEIVE as `Recv` says. -/
theorem SeeksSyn.receives_recv {e : RxEvent} {tail : List RxEvent} (he : e = .eof ∨ e = .ioerr) (input : List Byte)
    {s : State} (h : SeeksSyn s) (hx : s.rx = input.map .byte ++ e :: tail) : Receives s e tail (recv input) := by
  induction input using recv_induction generalizing s with
  | nil => exact h.receives_incomplete (bs := []) hx he (by simp [h.rxs]) _
  | noise b r hb ih =>
    have hdel : deliver [b] s = s := by rw [deliver_cons b [] (by simp [h.rxs]), rxByte_noise h.rxs hb, deliver_nil]
    have hr : (deliver [b] s).rxs = .seekSyn := hdel.symm ▸ h.rxs
    rw [recv_noise r hb]
    exact h.receives_of_deliver (bs := [b]) hx (by simp [hr]) (ih (h.after hr _) rfl)
  | synEnd =>
    have hdel : (deliver [Config.SYN] s).rxs = .readLen := by
      rw [deliver_cons _ [] (by simp [h.rxs]), rxByte_syn h.rxs, deliver_nil]
    exact h.receives_incomplete hx he (by simp [hdel]) _
  | falseSyn len r hl ih =>
    have hr : (deliver [Config.SYN, len] s).rxs = .seekSyn := by
      rw [deliver_cons _ _ (by simp [h.rxs]), rxByte_syn h.rxs, deliver_cons _ _ (by simp), rxByte_falseSyn rfl hl,
        deliver_nil]
    rw [recv_falseSyn r hl]
    exact h.receives_of_deliver (bs := [Config.SYN, len]) hx (by simp [hr]) (ih (h.after hr _) rfl)
  | short len r h4 hl =>
    obtain ⟨buf, -, hdel⟩ := deliver_incomplete h.rxs h4 h.rxbuf hl
    rw [recv_short h4 hl]
    exact h.receives_incomplete hx he (hdel ▸ nofun) _
  | candidate len body r h4 hb ih =>
    have hx' : s.rx = (Config.SYN :: len :: body).map .byte ++ (r.map .byte ++ e :: tail) := by rw [hx]; simp
    by_cases hc : chk (body.take (len.toNat - 1)) = body.getD (len.toNat - 1) 0x00#8
    · rw [recv_verified r h4 hb hc]
      exact h.receives_verified h4 hb hx' hc
    · have hr := deliver_mismatch h.rxs h.rxbuf h4 hb h.pay hc
      rw [recv_mismatch r h4 hb hc]
      exact h.receives_of_deliver hx' (by simp [hr]) (ih (h.after hr _) rfl)

/-- Settles O51: the number of steps is read off the stream, from which each step takes one answer. -/
theorem receiveMachineAgreesWithRecv : Obligations.ReceiveMachineAgreesWithRecv := by
  intro s input e tail hline ht hr he hx hw hp
  obtain ⟨n, t, ⟨hrun, hn, hothers, hladdr, htx, hcmds⟩, hends⟩ :=
    SeeksSyn.receives_recv he input ⟨hline, ht, hr, hw, hp⟩ hx
  refine ⟨n, t, hrun, hothers, hladdr, htx, hcmds, ?_⟩
  rw [hx, List.length_append, List.length_map, List.length_cons] at hn
  generalize recv input = o at hends
  cases hends with
  | noPacket unread c hrx hb hends hc =>
    rw [hrx] at hn
    exact ⟨by omega, hrx, hb, c, hends, hc⟩
  | overflow unread hrx hb hends =>
    rw [hrx, List.length_append, List.length_map, List.length_cons] at hn
    exact ⟨by omega, hrx, hb, hends⟩
  | ok unread dst src typ p hrx hends habs =>
    rw [hrx, List.length_append, List.length_map, List.length_cons] at hn
    exact ⟨by omega, hrx, hends, habs⟩

end Sys2Proof.Machine
end

section

/-!
PROOFS. The round trip through the wire: what a SEND writes is received as it was sent (O52 and O53).
-/

namespace Sys2Proof.Machine

/-! ## The frame as a candidate -/

/-- Rules R73 to R75: the body of a frame, the bytes after LEN. -/
def frameBody (dst src typ : Byte) (p : List Byte) : List Byte :=
  [dst, src, typ] ++ p ++ [chk ([dst, src, typ] ++ p)]

theorem encodeFrame_eq (dst src typ : Byte) (p : List Byte) :
    encodeFrame dst src typ p = Config.SYN :: lenByte p.length :: frameBody dst src typ p := rfl

section
variable (dst src typ : Byte) {p : List Byte} (h : p.length ≤ 128)
include h

theorem lenByte_toNat : (lenByte p.length).toNat = p.length + 4 :=
  (BitVec.toNat_ofNat ..).trans (Nat.mod_eq_of_lt (show p.length + 4 < 256 by omega))

/-- Rule R72: the LEN byte of a frame counts the bytes of its body. -/
theorem frameBody_length : (frameBody dst src typ p).length = (lenByte p.length).toNat := by
  simp [lenByte_toNat h, frameBody]

/-- Rule R75: the last byte of the body is the checksum of those before it. -/
theorem frameBody_checksum : chk ((frameBody dst src typ p).take ((lenByte p.length).toNat - 1)) =
    (frameBody dst src typ p).getD ((lenByte p.length).toNat - 1) 0x00#8 := by
  have hl : (lenByte p.length).toNat - 1 = ([dst, src, typ] ++ p).length := by
    rw [lenByte_toNat h, List.length_append, Nat.add_comm [dst, src, typ].length]
    rfl
  rw [hl, frameBody, List.take_left, List.getD_append_right _ _ _ _ le_rfl, Nat.sub_self, List.getD_cons_zero]

/-- Rule R72: the payload is what stands between the header and the checksum. -/
theorem frameBody_payload : ((frameBody dst src typ p).drop 3).take ((lenByte p.length).toNat - 4) = p := by
  rw [lenByte_toNat h, Nat.add_sub_cancel]
  exact List.take_left

/-- Rule R201: `Recv` of a frame is its packet. -/
theorem recv_encodeFrame (more : List Byte) :
    recv (encodeFrame dst src typ p ++ more) = (.ok dst src typ p, more) := by
  have hlen := lenByte_toNat h
  have hout : recvVerified (lenByte p.length) (frameBody dst src typ p) = .ok dst src typ p := by
    rw [recvVerified_ok (by omega) (by rw [frameBody_length dst src typ h]; omega), frameBody_payload dst src typ h]
    rfl
  rw [encodeFrame_eq, List.cons_append, List.cons_append,
    recv_verified more (by omega) (frameBody_length dst src typ h) (frameBody_checksum dst src typ h), hout]

end

/-- Settles O52: `Recv` discards the noise byte by byte, and then meets the frame. -/
theorem frameIsReceivedAsSent : Obligations.FrameIsReceivedAsSent := by
  intro noise more dst src typ p hnoise hl
  induction noise with
  | nil => exact recv_encodeFrame dst src typ hl more
  | cons b noise ih =>
    obtain ⟨hb, hnoise⟩ := List.forall_mem_cons.1 hnoise
    exact (recv_noise _ hb).trans (ih hnoise)

/-! ## A SEND and a RECEIVE -/

/-- Rules R191 and R201: a RECEIVE that finds a frame at the front of the stream delivers its packet. -/
theorem SeeksSyn.run_encodeFrame {s : State} (h : SeeksSyn s) (dst src typ : Byte) {p : List Byte} (hl : p.length ≤ 128)
    {rest : List RxEvent} (hx : s.rx = (encodeFrame dst src typ p).map .byte ++ rest) :
    ∃ n t, core.run n s = .next t ∧ EndsOk s t .ok ∧ (t.bank s.rxk).abs = ⟨src, dst, typ, some p⟩ ∧ t.rx = rest := by
  have hlen := lenByte_toNat hl
  have h4 : 4 ≤ (lenByte p.length).toNat := by omega
  have hb := frameBody_length dst src typ hl
  obtain ⟨t, hexec, -, ⟨hrx, -⟩, -, -, -, -, hgood, -⟩ :=
    completeFrameIsJudged (s.rxTaken rest) _ _ h.rxs h4 hb h.rxbuf h.pay
  obtain ⟨hends, habs⟩ := hgood (frameBody_checksum dst src typ hl) (by omega)
  rw [frameBody_payload dst src typ hl] at habs
  exact ⟨_, t, h.run_frame h4 hb hx hexec, hends, habs, hrx⟩

/-- Settles O53: the SEND ends with its frame on the transmit stream, and leaves what the RECEIVE needs. -/
theorem sendThenReceiveCopiesThePacket : Obligations.SendThenReceiveCopiesThePacket := by
  intro c hc s j k p rest hi hline hp hd ht ha
  have hl := (hi.stored.banks j).payload_length hp
  let frame := encodeFrame (headerAfter c.2.1 s.portA (s.bank j).dst) s.laddr (headerAfter c.2.2 s.portB (s.bank j).typ) p
  let u := (s.updBank j (sendHeader c.2.1 c.2.2 s)).loadFrame frame
  have hst : State.Stored (s.updBank j (sendHeader c.2.1 c.2.2 s)) :=
    hi.stored.updBank j fun _ => (KeepsPayload.sendHeader c.2.1 c.2.2 s).keeps_inv
  have hlen : frame.length ≤ 134 := (encodeFrame_length ..).trans_le (Nat.add_le_add_right hl 6)
  have hsend : exec (c.1 (bankField j)) s = .next ((u.txTaken frame rest).finish .ok) :=
    (exec_sendForms c hc _ s).trans <| (sendForm_handsOver hp hl hd ht).trans <|
      txAnswer_done ((State.updBank_txAns ..).trans ha) (State.unsent_loadFrame hst.txbuf hlen)
  let t := (u.txTaken frame rest).finish .ok
  let v : State := { t with rx := frame.map .byte ++ s.rx }
  have hseek : SeeksSyn (v.startReceive k) :=
    ⟨(State.updBank_resetLine ..).trans hline, rfl, rfl, hst.rxbuf, (hst.banks k).1⟩
  obtain ⟨n, w, hrun, hends, habs, hrx⟩ := hseek.run_encodeFrame _ _ _ hl (rest := s.rx) rfl
  exact ⟨t, frame, hsend, congrArg (· ++ frame) (State.updBank_tx ..), v.startReceive k, n, w,
    receiveStartsInSeekSyn v k, hrun, hends, habs, hrx⟩

end Sys2Proof.Machine
end

section

/-!
PROOFS. Faults are precise (O55), and the machine goes on (O60).
-/

namespace Sys2Proof.Machine

/-! ## Faults are precise -/

/-- Rules R87 and R232: between `s` and `t` one command has ended, with a fault. -/
def PresentsFault (s t : State) : Prop := ∃ c : Completion, t.results = s.results ++ [c] ∧ c.ending.isFault = true

theorem not_presentsFault_of_sameResults {s t : State} (h : t.results = s.results) : ¬ PresentsFault s t := by
  rintro ⟨c, hc, -⟩
  simp [h] at hc

theorem not_presentsFault_of_ok {s t : State} (h : t.results = s.results ++ [⟨codeOk, .ok⟩]) : ¬ PresentsFault s t := by
  rintro ⟨c, hc, hf⟩
  rw [h, List.append_cancel_left_eq, List.singleton_inj] at hc
  subst hc
  cases hf

/-- Of all that an answer of the receive transport can do, a fault is an ending that changes nothing else. -/
theorem RxEffect.onlyEnds_of_fault {s t : State} (h : RxEffect s t) (hf : PresentsFault s t) :
    ∃ c e, t = s.complete c e := by
  cases h with
  | ends c e _ => exact ⟨c, e, rfl⟩
  | delivers _ _ => exact absurd hf (not_presentsFault_of_ok (Ends.updBank_complete ..).2.1)
  | scans _ _ | begins _ _ | takes _ _ _ => exact absurd hf (not_presentsFault_of_sameResults rfl)

/-- Rule R232: only SEND writes a register before it faults; the fault of any other command changes nothing else. -/
theorem CommandEffect.onlyEnds_of_fault {i : Instr} {s t : State} {o : Host.Outcome State Fault Refusal}
    (h : CommandEffect i s o) (ho : o = .next t) (hi : isSend i = false) (hf : PresentsFault s t) :
    ∃ c e, t = s.complete c e := by
  cases h with
  | ends c e _ => cases ho; exact ⟨c, e, rfl⟩
  | clears j _ | header j g _ | stores j bs _ =>
    cases ho
    exact absurd hf (not_presentsFault_of_ok (Ends.updBank_complete ..).2.1)
  | address _ _ _ => cases ho; exact absurd hf (not_presentsFault_of_ok rfl)
  | receives j _ => cases ho; exact absurd hf (not_presentsFault_of_sameResults rfl)
  | sendFaults j g hs _ f info => exact nomatch hi.symm.trans hs
  | sends j g p hs _ _ _ _ => exact nomatch hi.symm.trans hs
  | stops _ _ _ => cases ho

theorem plainBankCommands_notSend : ∀ d ∈ plainBankCommands, ∀ k, isSend (d k) = false ∧ onWire (d k) = false := by
  simp [plainBankCommands, isSend, onWire]

theorem ReservedInstr.notSend {i : Instr} (h : ReservedInstr i) : isSend i = false ∧ onWire i = false := by
  rcases h with ⟨k, rfl⟩ | ⟨x, k, rfl⟩ | ⟨x, k, rfl⟩ | ⟨k, rfl⟩ | ⟨x, k, rfl⟩ | ⟨x, k, rfl⟩ | ⟨x, k, rfl⟩ |
    ⟨x, k, rfl⟩ | ⟨x, k, rfl⟩
  all_goals exact ⟨rfl, rfl⟩

/-- A step of a RECEIVE that presents a fault has taken one answer and only ends. -/
theorem rxRead_onlyEnds_of_fault {s : State} (hr : s.rxs ≠ .idle) (hf : PresentsFault s (rxRead s)) :
    ∃ a rest c e, s.rx = a :: rest ∧ rxRead s = (s.rxTaken rest).complete c e := by
  cases hx : s.rx with
  | nil => exact absurd hf (not_presentsFault_of_sameResults (congrArg State.results (rxRead_nil hx)))
  | cons a rest =>
    rw [rxRead_cons hx] at hf ⊢
    obtain ⟨c, e, h⟩ := (rxEvent_effect a (s := s.rxTaken rest) hr).onlyEnds_of_fault hf
    exact ⟨a, rest, c, e, rfl, h⟩

/-- Settles O55: without SEND, a fault changes nothing but what every ending does. -/
theorem faultsLeaveTheBanksAlone : Obligations.FaultsLeaveTheBanksAlone := by
  refine ⟨fun s t i c hi h hc hf => ?_, fun s t c hn ht hr h hc hf => ?_⟩
  · have hcmd : isSend i = false ∧ onWire i = false := by
      rcases hi with ⟨d, hd, k, rfl⟩ | rfl | rfl | hres
      · exact plainBankCommands_notSend d hd k
      · exact ⟨rfl, rfl⟩
      · exact ⟨rfl, rfl⟩
      · exact hres.notSend
    obtain ⟨code, e, rfl⟩ := (exec_effect i s hcmd.2).onlyEnds_of_fault h hcmd.1 ⟨c, hc, hf⟩
    exact ⟨fun _ => rfl, rfl, rfl, rfl, rfl⟩
  · rw [step_noReset hn, advance_receive (s := s.tick) ht hr] at h
    cases h
    obtain ⟨a, rest, code, e, hx, h⟩ := rxRead_onlyEnds_of_fault (s := s.tick) hr ⟨c, hc, hf⟩
    rw [h]
    exact ⟨fun _ => rfl, rfl, rfl, rfl, a, hx⟩

/-! ## The machine goes on -/

/-- Rule R43: whatever the transport says, a frame that lies in `TXBUF` can be written. -/
theorem txAnswer_goesOn {s : State} {f : List Byte} (hf : s.loadedFrame = some f) : ∃ t, txAnswer s = .next t := by
  rcases txAnswer_cases s with ⟨-, h⟩ | ⟨_, _, _, -, -, h⟩ | ⟨_, _, -, -, h⟩ | ⟨_, _, _, -, -, h⟩ | ⟨-, hnone, -⟩
  · exact ⟨_, h⟩
  · exact ⟨_, h⟩
  · exact ⟨_, h⟩
  · exact ⟨_, h⟩
  · exact nomatch hf.symm.trans hnone

/-- Rules R16 and R41: a command stops only where `PLEN` exceeds 128. -/
theorem CommandEffect.goesOn {i : Instr} {s : State} {o : Host.Outcome State Fault Refusal} (h : CommandEffect i s o)
    (hi : s.Stored) : ∃ t, o = .next t := by
  cases h with
  | ends _ _ _ | clears _ _ | header _ _ _ | stores _ _ _ | address _ _ _ | receives _ _ | sendFaults _ _ _ _ _ _ =>
    exact ⟨_, rfl⟩
  | sends j g p _ _ _ _ hl =>
    have hw : (s.updBank j g).txbuf.wf 134 = true := by rw [State.updBank_txbuf]; exact hi.txbuf
    exact txAnswer_goesOn (State.loadedFrame_loadFrame hw (by rw [encodeFrame_length]; omega))
  | stops j _ hl => exact absurd (hi.banks j).2.1 (Nat.not_le.2 hl)

/-- Settles O60: the two stops of the model need a `PLEN` above 128 or a frame that does not lie in `TXBUF`. -/
theorem theMachineGoesOn : Obligations.TheMachineGoesOn := by
  intro s hi
  rcases step_cases s with ⟨-, h⟩ | ⟨-, ht, h⟩ | ⟨-, -, -, h⟩ | ⟨-, -, -, h⟩ | ⟨c, rest, i, -, -, -, hd, h⟩ |
    ⟨_, _, _, -, -, -, -, h⟩
  · exact ⟨_, h⟩
  · obtain ⟨k, p, before, -, -, hf, -, -⟩ := hi.txInv ht
    obtain ⟨t, htx⟩ := txAnswer_goesOn (s := s.tick) hf
    exact ⟨t, h.trans htx⟩
  · exact ⟨_, h⟩
  · exact ⟨_, h⟩
  · obtain ⟨t, ho⟩ := (exec_effect i _ (decodeCommand_onWire hd)).goesOn (hi.tick.issued c rest).stored
    exact ⟨t, h.trans ho⟩
  · exact ⟨_, h⟩

end Sys2Proof.Machine
end

section

/-!
PROOFS. Reset (O10), and the instruction that the bytes at the front of the receive stream hold (O50).
-/

namespace Sys2Proof.Machine

/-! ## Reset -/

theorem Packet.abs_empty : Packet.empty.abs = ⟨0x00#8, 0x00#8, 0x00#8, none⟩ := rfl

/-- Rules R22 and R23: while a SEND is in progress, the bytes before the position are the last ones on the transmit stream. -/
theorem State.TxInv.tx_ends {s : State} (h : s.TxInv) (ht : s.txs = .emit) {f : List Byte} (hf : s.loadedFrame = some f) :
    ∃ before, s.tx = before ++ f.take s.txpos.toNat := by
  obtain ⟨k, p, before, -, -, hframe, -, htx⟩ := h ht
  obtain rfl := Option.some.inj (hframe.symm.trans hf)
  exact ⟨before, htx⟩

/-- Settles O10: the step is the reset event, which keeps the ports, the streams and the completions. -/
theorem resetAbandonsTheCommand : Obligations.ResetAbandonsTheCommand := by
  intro s rest h
  refine ⟨s.tick.resetEvent, step_reset (by rw [h]; rfl), fun k => ?_, rfl, rfl, ⟨rfl, rfl⟩, rfl, ⟨rfl, rfl, rfl⟩, rfl, ?_,
    fun f hi ht hf => hi.txInv.tx_ends ht hf⟩
  · rw [State.bank_resetEvent]
    exact ⟨Packet.abs_empty, rfl⟩
  · exact congrArg List.tail h

/-! ## The bytes of an instruction on the stream -/

/-- Rules R70 and R77: the meaning of a stream pattern is to deliver its bytes. -/
theorem exec_wire {i : Instr} {used : List Byte} (h : encode i = .wire used) (s : State) :
    exec i s = .next (deliver used s) := by
  cases i with
  | frame rest =>
    cases h
    exact exec_frame rest s
  | frameFalseSyn ll =>
    cases h
    exact exec_frameFalseSyn ll s
  | _ => cases h

/-- Rule R183. -/
theorem deliver_syn {s : State} (h : s.rxs = .seekSyn) : (deliver [Config.SYN] s).rxs = .readLen := by
  rw [deliver_cons _ [] (by simp [h]), rxByte_syn h, deliver_nil]

/-- Rules R187 and R189: before its last byte a candidate is in its body. -/
theorem deliver_body {s : State} (h : s.rxs = .seekSyn) {len : Byte} (h4 : 4 ≤ len.toNat) {bs : List Byte}
    (hl : bs.length < len.toNat) : (deliver (Config.SYN :: len :: bs) s).rxs = .readBody := by
  let u : State := { s with rxs := .readBody, rxlen := len, rxcnt := 0x00#8, rxsum := 0x00#8 }
  have hu : deliver (Config.SYN :: len :: bs) s = deliver bs u := by
    rw [deliver_cons _ _ (by simp [h]), rxByte_syn h, deliver_cons _ _ (by simp), rxByte_len rfl h4]
  have hbody := deliver_append_body bs [] (s := u) rfl ((Nat.zero_add _).trans_lt hl)
  rw [List.append_nil, deliver_nil] at hbody
  rw [hu, hbody, bodyRun_rxs bs rfl]

/-- Rules R182 to R189: a RECEIVE that seeks SYN goes on until the last byte of a stream pattern. -/
theorem busy_before_last {s : State} (h : s.rxs = .seekSyn) {i : Instr} {used : List Byte} (hw : i.wf = true)
    (he : encode i = .wire used) : (deliver used.dropLast s).rxs ≠ .idle := by
  cases i with
  | frame rest =>
    cases he
    cases rest with
    | nil => exact fun hi => nomatch h.symm.trans hi
    | cons len body =>
      obtain ⟨h4, hl⟩ := candidateOK_cons.1 hw
      cases body with
      | nil => exact fun hi => nomatch (deliver_syn h).symm.trans hi
      | cons b bs =>
        have hlt : (b :: bs).dropLast.length < len.toNat := by
          rw [List.length_dropLast]
          exact hl
        exact fun hi => nomatch (deliver_body h h4 hlt).symm.trans hi
  | frameFalseSyn ll =>
    cases he
    exact fun hi => nomatch (deliver_syn h).symm.trans hi
  | _ => cases he

/-- Rule R270: the machine takes the bytes at the front of the stream one a step, the one that may end the RECEIVE last. -/
theorem run_deliver_last {bs : List Byte} {s : State} {rest : List RxEvent} (hline : s.resetLine = []) (ht : s.txs = .idle)
    (hx : s.rx = bs.map .byte ++ rest) (h : (deliver bs.dropLast s).rxs ≠ .idle) :
    core.run bs.length s = .next (deliver bs (s.rxTaken rest)) := by
  obtain rfl | ⟨bs, c, rfl⟩ := bs.eq_nil_or_concat'
  · obtain rfl : s.rx = rest := hx
    rfl
  rw [List.dropLast_concat] at h
  have hgo := deliver_staysReceiving h
  let u := (deliver bs s).rxTaken (.byte c :: rest)
  have hrun : core.run bs.length s = .next u := run_deliver hline ht (by rw [hx]; simp) h
  have hline' : u.resetLine = [] := hgo.resetLine.trans hline
  have hstep : step u = .next (rxByte c ((deliver bs s).rxTaken rest)) := by
    rw [step_byte (s := u) (noReset_of_nil hline') (hgo.txs.trans ht) h rfl, tick_of_nil hline']
    rfl
  have hdel := deliver_rxTaken h rest
  rw [List.length_append, List.length_singleton, run_add _ 1 hrun, run_succ 0 hstep, run_zero,
    deliver_concat (hdel ▸ h), hdel]

/-- Settles O50: the bytes that the decoder takes are those of the instruction, and the machine delivers them one a step. -/
theorem stepsRunTheWireInstruction : Obligations.StepsRunTheWireInstruction := by
  intro s bytes more i tail hline ht hr hd hx
  obtain ⟨hw, used, he, rfl⟩ := wireDecoderSplitsTheStream.1 bytes more i hd
  rw [List.map_append, List.append_assoc] at hx
  rw [List.length_append, Nat.add_sub_cancel, exec_wire he]
  exact run_deliver_last hline ht hx (busy_before_last hr hw he)

end Sys2Proof.Machine
end

section

/-!
PROOFS. The words and bytes that the spec writes out (O5).
-/

namespace Sys2Proof

open Machine (onWire)

/-- Rules R82 and R83: the word that an instruction is encoded with, its bank in range or not, decodes to it. -/
theorem decodeCommand_of_encode {w : CmdWord} {i : Instr} (h : encode i = .command w) : decodeCommand w = .ok i := by
  have hi : onWire i = false := by
    cases i with
    | frame | frameFalseSyn => cases h
    | _ => rfl
  have hd : decode (.command w) = .ok (i, []) := h ▸ decode_encode_command hi
  cases hw : decodeCommand w with
  | ok j =>
    rw [decode, hw] at hd
    cases hd
    rfl
  | error e =>
    rw [decode, hw] at hd
    cases hd

/-- Settles O5: each word is the encoding of its instruction, the LEN 6 of TX-1 begins a candidate and the LEN 3 a false
match. -/
theorem specWordsDecode : Obligations.SpecWordsDecode := by
  refine ⟨?_, ?_, ?_, ?_, ?_, ?_, ?_, ?_, ?_, ?_, ?_, decodeWire_candidate (by decide) _, decodeWire_falseSyn (by decide) _⟩
  all_goals exact decodeCommand_of_encode rfl

end Sys2Proof
end
